-- ==== Sys2Proof/Word.lean ====
section
/-! DEFINITION. The word types of the block (00_scope.md R9): every value is unsigned, bit 0 is the least significant bit. -/

namespace Sys2Proof

/-- A byte, 8 bits (R9). -/
abbrev Byte := BitVec 8

/-- A 16-bit value: the CRC register, the format word, a host offset (R7, R80). -/
abbrev Half := BitVec 16

/-- A 32-bit host word (R81). -/
abbrev Word := BitVec 32

end Sys2Proof
end

