-- ==== Sys2Proof/Syntax.lean ====
section
/-! DEFINITION. The instructions of the block: one constructor per row of spec/opcode_table.json (12 commands, 16 frame
types, 7 function codes, 5 external events). -/

namespace Sys2Proof

/-- An instruction of the block. Commands are words written to CMD (30_encoding.md R120, R121); frame types are format words
(R101, R107, R108), whose meaning is what EMIT does with a frame of that format word (42_decoder.md R230; log 10); function
codes are payload bytes (R112; log 11); the rest are the five external events (10_state.md R30). Operand bits that the spec
says a command ignores (R123) are no operands. -/
inductive Instr where
  /-- NOP (44_host_interface.md R310). -/
  | nop
  /-- CRC_INIT (40_crc.md R155). -/
  | crcInit
  /-- CRC_BYTE, A8 = byte (40_crc.md R156). -/
  | crcByte (b : Byte)
  /-- TX_SEND, A8[0] = AUTO_ID (41_encoder_mux.md R184). -/
  | txSend (autoId : Bool)
  /-- TX_CANCEL (41_encoder_mux.md R186). -/
  | txCancel
  /-- RX_POP, A8 = channel (43_demux_tokens.md R263). -/
  | rxPop (c : Byte)
  /-- RXQ_CLEAR (43_demux_tokens.md R264). -/
  | rxqClear
  /-- DEC_ABORT (42_decoder.md R233). -/
  | decAbort
  /-- TOK_ACK, A8 = echo (43_demux_tokens.md R275). -/
  | tokAck (echo : Byte)
  /-- TOK_NACK, A8 = echo, A16[7:0] = reason (43_demux_tokens.md R276). -/
  | tokNack (echo : Byte) (reason : Byte)
  /-- TOK_CLEAR (43_demux_tokens.md R277). -/
  | tokClear
  /-- CNT_CLEAR (44_host_interface.md R311). -/
  | cntClear
  /-- FRAME_UNASSIGNED_0: format word of type 0x0, `len` its data_length (R108). -/
  | frameUnassigned0 (len : BitVec 12)
  /-- FRAME_CONFIGURATION: type 0x1 (R107). -/
  | frameConfiguration (len : BitVec 12)
  /-- FRAME_COMMAND: type 0x2 (R107). -/
  | frameCommand (len : BitVec 12)
  /-- FRAME_DATA: type 0x3 (R107). -/
  | frameData (len : BitVec 12)
  /-- FRAME_UNASSIGNED_4: type 0x4 (R108). -/
  | frameUnassigned4 (len : BitVec 12)
  /-- FRAME_UNASSIGNED_5: type 0x5 (R108). -/
  | frameUnassigned5 (len : BitVec 12)
  /-- FRAME_UNASSIGNED_6: type 0x6 (R108). -/
  | frameUnassigned6 (len : BitVec 12)
  /-- FRAME_UNASSIGNED_7: type 0x7 (R108). -/
  | frameUnassigned7 (len : BitVec 12)
  /-- FRAME_ACK: type 0x8 (R107). -/
  | frameAck (len : BitVec 12)
  /-- FRAME_NACK: type 0x9 (R107). -/
  | frameNack (len : BitVec 12)
  /-- FRAME_ERROR: type 0xA (R107). -/
  | frameError (len : BitVec 12)
  /-- FRAME_UNASSIGNED_B: type 0xB (R108). -/
  | frameUnassignedB (len : BitVec 12)
  /-- FRAME_UNASSIGNED_C: type 0xC (R108). -/
  | frameUnassignedC (len : BitVec 12)
  /-- FRAME_UNASSIGNED_D: type 0xD (R108). -/
  | frameUnassignedD (len : BitVec 12)
  /-- FRAME_UNASSIGNED_E: type 0xE (R108). -/
  | frameUnassignedE (len : BitVec 12)
  /-- FRAME_UNASSIGNED_F: type 0xF (R108). -/
  | frameUnassignedF (len : BitVec 12)
  /-- FN_SET_BAUD_RATE: CONFIGURATION function byte 0x1 on the RX wire (R112). -/
  | fnSetBaudRate
  /-- FN_SET_ACK_TIMEOUT: CONFIGURATION function byte 0x2 (R112). -/
  | fnSetAckTimeout
  /-- FN_TRANSMIT_TOKEN: CONFIGURATION function byte 0x3 (R112). -/
  | fnTransmitToken
  /-- FN_QUERY_FILE: COMMAND function byte 0x1 (R112). -/
  | fnQueryFile
  /-- FN_QUERY_FILE_CRC: COMMAND function byte 0x2 (R112). -/
  | fnQueryFileCrc
  /-- FN_RECEIVE_FILE: COMMAND function byte 0x3 (R112). -/
  | fnReceiveFile
  /-- FN_TRANSMIT_FILE: COMMAND function byte 0x4 (R112). -/
  | fnTransmitFile
  /-- RX_BYTE: the RX wire delivers `b` (42_decoder.md R222). -/
  | rxByte (b : Byte)
  /-- TX_PULL: the TX wire asks for the next byte (41_encoder_mux.md R190). -/
  | txPull
  /-- HOST_READ of the word at `off` (44_host_interface.md R300). -/
  | hostRead (off : Half)
  /-- HOST_WRITE of `v` at `off` (44_host_interface.md R302). -/
  | hostWrite (off : Half) (v : Word)
  /-- RESET (70_reset_and_hazards.md R380). -/
  | reset
  deriving DecidableEq, Repr

end Sys2Proof
end

