-- ==== Sys2Proof/WellFormed.lean ====
section
/-! DEFINITION. Which terms of Instr are the one name of what they stand for. -/

namespace Sys2Proof

/-- A write of a defined command word to CMD is named by the command's own constructor (44_host_interface.md R308), so the
term `hostWrite 0x010 v` with a defined opcode is a second name and not well formed. Its meaning is the command's all the
same (log 12). Every other field of an instruction is bounded by its type. -/
def Instr.wellFormed : Instr → Bool
  | .hostWrite off v => !(off == Config.offCmd && Config.opcodes.contains (v.extractLsb' 0 8))
  | _ => true

end Sys2Proof
end

