-- ==== Sys2Proof/Decode.lean ====
section
/-! DEFINITION. The encodings: command words (30_encoding.md R120 to R124), format words (R101, R102), function bytes (R112)
and the operands of the external events, decoded from bytes and encoded to bytes. -/

namespace Sys2Proof

/-- Where the bits of an instruction come in: the block has several encodings, told apart by the place, not by the bits. -/
inductive Space where
  /-- a word written to CMD, 4 bytes (R120) -/
  | command
  /-- a format word on the RX wire, 2 bytes, high byte first (R85, R101) -/
  | format
  /-- payload byte 0 of a frame of type `t`, 1 byte (R112) -/
  | function (t : BitVec 4)
  /-- a byte on the RX wire (42_decoder.md R222) -/
  | rxByte
  /-- a request of the TX wire, no bits (41_encoder_mux.md R190) -/
  | txPull
  /-- the offset of a host read, 2 bytes (44_host_interface.md R300) -/
  | hostRead
  /-- the offset and the value of a host write, 2 + 4 bytes (44_host_interface.md R302) -/
  | hostWrite
  /-- the reset input, no bits (70_reset_and_hazards.md R380) -/
  | reset
  deriving DecidableEq, Repr

/-- Why bytes are no instruction. -/
inductive DecodeError where
  /-- fewer bytes than the encoding has -/
  | truncated
  /-- a reserved command opcode (R122): a write of it to CMD raises REJECT -/
  | reservedOpcode (op : Byte)
  /-- a function byte the spec gives no name (R112): the block buffers it like any other byte -/
  | unassignedFunction (t : BitVec 4) (b : Byte)
  deriving DecidableEq, Repr

/-! Fields and byte order. -/

/-- Bits 15..8. -/
def hiByte (w : Half) : Byte := w.extractLsb' 8 8

/-- Bits 7..0. -/
def loByte (w : Half) : Byte := w.extractLsb' 0 8

/-- `{hi, lo}` of 00_scope.md R9. -/
def halfOf (hi lo : Byte) : Half := hi ++ lo

/-- OP of a command word (R120). -/
def cmdOp (v : Word) : Byte := v.extractLsb' 0 8

/-- A8 of a command word (R120). -/
def cmdA8 (v : Word) : Byte := v.extractLsb' 8 8

/-- A16 of a command word (R120). -/
def cmdA16 (v : Word) : Half := v.extractLsb' 16 16

/-- `frame_type` of a format word (R101). -/
def fmtType (w : Half) : BitVec 4 := w.extractLsb' 12 4

/-- `data_length` of a format word (R101). -/
def fmtLen (w : Half) : BitVec 12 := w.extractLsb' 0 12

/-- Format word assembly (R102): type in bits 15..12, length in bits 11..0. -/
def formatWord (t : BitVec 4) (len : BitVec 12) : Half := t ++ len

/-- A command word from its fields (R120). -/
def commandWord (op a8 : Byte) (a16 : Half) : Word := a16 ++ (a8 ++ op)

/-- The four bytes of a host word, bits 7..0 first: the numbering of opcode_table.json; the host bus has no byte order of its
own (20_memory.md R87; DESIGN CHOICE, log 13). -/
def wordBytes (v : Word) : List Byte :=
  [v.extractLsb' 0 8, v.extractLsb' 8 8, v.extractLsb' 16 8, v.extractLsb' 24 8]

/-- The host word of four bytes, bits 7..0 first. -/
def wordOfBytes (b0 b1 b2 b3 : Byte) : Word := b3 ++ (b2 ++ (b1 ++ b0))

/-! Decoding. -/

/-- The command decoder (R121, R122, R123): the opcode alone selects the command. -/
def decodeCommand (v : Word) : Except DecodeError Instr :=
  match cmdOp v with
  | 0x00#8 => .ok .nop
  | 0x01#8 => .ok .crcInit
  | 0x02#8 => .ok (.crcByte (cmdA8 v))
  | 0x10#8 => .ok (.txSend ((cmdA8 v).getLsbD 0))
  | 0x11#8 => .ok .txCancel
  | 0x20#8 => .ok (.rxPop (cmdA8 v))
  | 0x21#8 => .ok .rxqClear
  | 0x22#8 => .ok .decAbort
  | 0x30#8 => .ok (.tokAck (cmdA8 v))
  | 0x31#8 => .ok (.tokNack (cmdA8 v) (loByte (cmdA16 v)))
  | 0x32#8 => .ok .tokClear
  | 0x40#8 => .ok .cntClear
  | op => .error (.reservedOpcode op)

/-- The format word decoder (R101, R107, R108): every word is one of the sixteen frame types. -/
def decodeFormat (w : Half) : Instr :=
  match fmtType w with
  | 0x0#4 => .frameUnassigned0 (fmtLen w)
  | 0x1#4 => .frameConfiguration (fmtLen w)
  | 0x2#4 => .frameCommand (fmtLen w)
  | 0x3#4 => .frameData (fmtLen w)
  | 0x4#4 => .frameUnassigned4 (fmtLen w)
  | 0x5#4 => .frameUnassigned5 (fmtLen w)
  | 0x6#4 => .frameUnassigned6 (fmtLen w)
  | 0x7#4 => .frameUnassigned7 (fmtLen w)
  | 0x8#4 => .frameAck (fmtLen w)
  | 0x9#4 => .frameNack (fmtLen w)
  | 0xA#4 => .frameError (fmtLen w)
  | 0xB#4 => .frameUnassignedB (fmtLen w)
  | 0xC#4 => .frameUnassignedC (fmtLen w)
  | 0xD#4 => .frameUnassignedD (fmtLen w)
  | 0xE#4 => .frameUnassignedE (fmtLen w)
  | _ => .frameUnassignedF (fmtLen w)

/-- The names of function bytes (R112), for the layer above: the block itself does not decode them. -/
def decodeFunction (t : BitVec 4) (b : Byte) : Except DecodeError Instr :=
  if t = Config.typeConfiguration ∧ b = Config.fnSetBaudRate then .ok .fnSetBaudRate
  else if t = Config.typeConfiguration ∧ b = Config.fnSetAckTimeout then .ok .fnSetAckTimeout
  else if t = Config.typeConfiguration ∧ b = Config.fnTransmitToken then .ok .fnTransmitToken
  else if t = Config.typeCommand ∧ b = Config.fnQueryFile then .ok .fnQueryFile
  else if t = Config.typeCommand ∧ b = Config.fnQueryFileCrc then .ok .fnQueryFileCrc
  else if t = Config.typeCommand ∧ b = Config.fnReceiveFile then .ok .fnReceiveFile
  else if t = Config.typeCommand ∧ b = Config.fnTransmitFile then .ok .fnTransmitFile
  else .error (.unassignedFunction t b)

/-- The instruction a host write is: the command where a defined command word goes to CMD (R308), else the write itself. -/
def decodeWrite (off : Half) (v : Word) : Instr :=
  if off = Config.offCmd then
    match decodeCommand v with
    | .ok i => i
    | .error _ => .hostWrite off v
  else .hostWrite off v

/-- The decoder: the instruction the leading bytes are in space `sp`, with the bytes left over. Total on any bytes. -/
def decode (sp : Space) (bs : List Byte) : Except DecodeError (Instr × List Byte) :=
  match sp, bs with
  | .command, b0 :: b1 :: b2 :: b3 :: rest =>
    match decodeCommand (wordOfBytes b0 b1 b2 b3) with
    | .ok i => .ok (i, rest)
    | .error e => .error e
  | .format, hi :: lo :: rest => .ok (decodeFormat (halfOf hi lo), rest)
  | .function t, b :: rest =>
    match decodeFunction t b with
    | .ok i => .ok (i, rest)
    | .error e => .error e
  | .rxByte, b :: rest => .ok (.rxByte b, rest)
  | .txPull, rest => .ok (.txPull, rest)
  | .hostRead, lo :: hi :: rest => .ok (.hostRead (halfOf hi lo), rest)
  | .hostWrite, lo :: hi :: b0 :: b1 :: b2 :: b3 :: rest =>
    .ok (decodeWrite (halfOf hi lo) (wordOfBytes b0 b1 b2 b3), rest)
  | .reset, rest => .ok (.reset, rest)
  | _, _ => .error .truncated

/-! Encoding. -/

/-- A command's code, operand bits it does not use 0 (R121). -/
def encodeCommand (op a8 : Byte) (a16 : Half) : Space × List Byte :=
  (.command, wordBytes (commandWord op a8 a16))

/-- A format word's code, high byte first on the wire (R85, R102). -/
def encodeFormat (t : BitVec 4) (len : BitVec 12) : Space × List Byte :=
  (.format, [hiByte (formatWord t len), loByte (formatWord t len)])

/-- The encoder: the space and the bytes of an instruction (R102, R112, R121; events R222, R190, R300, R302, R380). -/
def encode : Instr → Space × List Byte
  | .nop => encodeCommand 0x00 0 0
  | .crcInit => encodeCommand 0x01 0 0
  | .crcByte b => encodeCommand 0x02 b 0
  | .txSend a => encodeCommand 0x10 (if a then 1 else 0) 0
  | .txCancel => encodeCommand 0x11 0 0
  | .rxPop c => encodeCommand 0x20 c 0
  | .rxqClear => encodeCommand 0x21 0 0
  | .decAbort => encodeCommand 0x22 0 0
  | .tokAck e => encodeCommand 0x30 e 0
  | .tokNack e r => encodeCommand 0x31 e (r.setWidth 16)
  | .tokClear => encodeCommand 0x32 0 0
  | .cntClear => encodeCommand 0x40 0 0
  | .frameUnassigned0 n => encodeFormat 0x0 n
  | .frameConfiguration n => encodeFormat Config.typeConfiguration n
  | .frameCommand n => encodeFormat Config.typeCommand n
  | .frameData n => encodeFormat Config.typeData n
  | .frameUnassigned4 n => encodeFormat 0x4 n
  | .frameUnassigned5 n => encodeFormat 0x5 n
  | .frameUnassigned6 n => encodeFormat 0x6 n
  | .frameUnassigned7 n => encodeFormat 0x7 n
  | .frameAck n => encodeFormat Config.typeAck n
  | .frameNack n => encodeFormat Config.typeNack n
  | .frameError n => encodeFormat Config.typeError n
  | .frameUnassignedB n => encodeFormat 0xB n
  | .frameUnassignedC n => encodeFormat 0xC n
  | .frameUnassignedD n => encodeFormat 0xD n
  | .frameUnassignedE n => encodeFormat 0xE n
  | .frameUnassignedF n => encodeFormat 0xF n
  | .fnSetBaudRate => (.function Config.typeConfiguration, [Config.fnSetBaudRate])
  | .fnSetAckTimeout => (.function Config.typeConfiguration, [Config.fnSetAckTimeout])
  | .fnTransmitToken => (.function Config.typeConfiguration, [Config.fnTransmitToken])
  | .fnQueryFile => (.function Config.typeCommand, [Config.fnQueryFile])
  | .fnQueryFileCrc => (.function Config.typeCommand, [Config.fnQueryFileCrc])
  | .fnReceiveFile => (.function Config.typeCommand, [Config.fnReceiveFile])
  | .fnTransmitFile => (.function Config.typeCommand, [Config.fnTransmitFile])
  | .rxByte b => (.rxByte, [b])
  | .txPull => (.txPull, [])
  | .hostRead off => (.hostRead, [loByte off, hiByte off])
  | .hostWrite off v => (.hostWrite, [loByte off, hiByte off] ++ wordBytes v)
  | .reset => (.reset, [])

/-! The opcode table's numbering. -/

/-- What a decoding gives, its rest dropped. -/
def instrOf (r : Except DecodeError (Instr × List Byte)) : Option Instr :=
  match r with
  | .ok (i, _) => some i
  | .error _ => none

/-- The space a table word of `nbits` bits with value `w` is read in (log 11): 16 bits are a format word, 48 bits a host
write, any other width up to 32 a command word; an 8-bit code that is no command is read as a function byte of a
CONFIGURATION frame, else of a COMMAND frame. -/
def tableSpace (nbits w : Nat) : Space :=
  if nbits = 16 then .format
  else if nbits = 48 then .hostWrite
  else if nbits = 8 ∧ (decodeCommand (BitVec.ofNat 32 w)).toOption = none then
    (if (decodeFunction Config.typeConfiguration (BitVec.ofNat 8 w)).toOption = none
     then .function Config.typeCommand else .function Config.typeConfiguration)
  else .command

/-- The bytes of a table word as the hardware presents them in its space; every bit above `nbits` is 0. -/
def tableBytes (nbits w : Nat) : List Byte :=
  match tableSpace nbits w with
  | .format => [hiByte (BitVec.ofNat 16 w), loByte (BitVec.ofNat 16 w)]
  | .function _ => [BitVec.ofNat 8 w]
  | .hostWrite => [BitVec.ofNat 8 w, BitVec.ofNat 8 (w / 2 ^ 8)] ++ wordBytes (BitVec.ofNat 32 (w / 2 ^ 16))
  | _ => wordBytes (BitVec.ofNat 32 w)

/-- The instruction the decoder reads from a word numbered as opcode_table.json numbers it. -/
def decodeTableWord (nbits w : Nat) : Option Instr :=
  instrOf (decode (tableSpace nbits w) (tableBytes nbits w))

end Sys2Proof
end

