-- ==== Sys2Proof/Machine/State.lean ====
section
/-! DEFINITION. The state of the block as plain data (10_state.md), its reset value (R55), and the reasons a step can stop. -/

namespace Sys2Proof.Machine

/-- The decoder's states, in the order of their 4-bit encoding 0..8 (10_state.md R33). `emit` is transient: never held between
events. -/
inductive DState where
  | huntSync1 | huntSync2 | readFormatHi | readFormatLo | readId | readPayload | readCrcHi | readCrcLo | emit
  deriving DecidableEq, Repr

/-- The kind of a token (R38). -/
inductive TokenKind where
  | ack | nack
  deriving DecidableEq, Repr

/-- A token record (R38); `reason` is 0 for an ACK. -/
structure TokenRecord where
  kind : TokenKind
  echo : Byte
  reason : Byte
  deriving DecidableEq, Repr

/-- A frame record (R36), the decoder's valid frame. -/
structure FrameRecord where
  type : BitVec 4
  id : Byte
  len : BitVec 12
  payload : List Byte
  crc : Half
  deriving DecidableEq, Repr

/-- The host's frame header register TX_HDR (R40): TYPE bits 7..0, ID bits 15..8, LEN bits 31..16. -/
structure TxHdr where
  type : Byte
  id : Byte
  len : Half
  deriving DecidableEq, Repr

/-- What TX_SEND captures of the staged frame (R41). -/
structure TxSnap where
  type : BitVec 4
  id : Byte
  len : BitVec 12
  crc : Half
  autoid : Bool
  deriving DecidableEq, Repr

/-- The source of the frame being sent (R42); the code 3 is no value. -/
inductive TxSrc where
  | none | host | token
  deriving DecidableEq, Repr

/-- The eight 16-bit saturating event counters of CNT0..CNT3 (R51). -/
structure Counters where
  rxok : Half
  integ : Half
  decerr : Half
  rxovf : Half
  txok : Half
  toktx : Half
  tokdrop : Half
  encerr : Half
  deriving DecidableEq, Repr

/-- A buffer of `Config.maxPayload` bytes: the (index, byte) pairs of its non-zero bytes, indices rising (`Mem.wf`). -/
abbrev Mem := List Host.Cell

/-- The implementation parameters of 00_scope.md R8. No step changes them (log 3, 4). -/
structure Params where
  /-- RXQ_DEPTH, 1..255 -/
  rxqDepth : Nat
  /-- TOKQ_DEPTH, 1..255 -/
  tokqDepth : Nat
  /-- txbuf_init, the contents of TXBUF after reset -/
  txbufInit : Mem
  deriving DecidableEq, Repr

/-- The five external events (R30). -/
inductive Stimulus where
  | rxByte (b : Byte)
  | txPull
  | hostRead (off : Half)
  | hostWrite (off : Half) (v : Word)
  | reset
  deriving DecidableEq, Repr

/-- What an external event returns to who presented it: HOST_READ a word (44_host_interface.md R300), TX_PULL a byte or IDLE
(41_encoder_mux.md R190). -/
inductive Reply where
  | word (v : Word)
  | byte (b : Byte)
  | idle
  deriving DecidableEq, Repr

/-- The state of the block. The comment of each field is its name in 10_state.md. -/
structure State where
  /-- HCRC, the host CRC engine (R32) -/
  hcrc : Half
  /-- DSTATE (R33) -/
  dstate : DState
  /-- DFMT (R34) -/
  dfmt : Half
  /-- DID (R34) -/
  did : Byte
  /-- DIDX (R34) -/
  didx : BitVec 12
  /-- DCRC (R34) -/
  dcrc : Half
  /-- DCRCX (R34) -/
  dcrcx : Half
  /-- DBUF (R35) -/
  dbuf : Mem
  /-- RXQ[0..6], each oldest first (R37) -/
  rxq : Vector (List FrameRecord) 7
  /-- TOKQ, oldest first (R38) -/
  tokq : List TokenRecord
  /-- NEXT_ID (R39) -/
  nextId : Byte
  /-- TX_HDR (R40) -/
  txHdr : TxHdr
  /-- TX_STAGED (R41) -/
  txStaged : Bool
  /-- TX_SNAP (R41) -/
  txSnap : TxSnap
  /-- TXSRC (R42) -/
  txsrc : TxSrc
  /-- TXFRAME (R42) -/
  txframe : List Byte
  /-- TXPOS (R42) -/
  txpos : BitVec 13
  /-- TXBUF (R43) -/
  txbuf : Mem
  /-- CTRL[1:0]: AUTO_NACK_EN, AUTO_ACK_EN (R45) -/
  ctrl : BitVec 2
  /-- EVT_PEND (R47) -/
  evtPend : Byte
  /-- EVT_MASK (R47) -/
  evtMask : Byte
  /-- RX_SEL (R48) -/
  rxSel : BitVec 3
  /-- ERR_INFO (R50) -/
  errInfo : Word
  /-- ERR_CRC (R50) -/
  errCrc : Word
  /-- CNT0..CNT3 (R51) -/
  cnt : Counters
  /-- the implementation parameters (00_scope.md R8) -/
  params : Params
  /-- MODEL'S OWN (log 1): the external events still to come, the next one first -/
  inbox : List Stimulus
  /-- MODEL'S OWN (log 2): what HOST_READ and TX_PULL returned, oldest first -/
  replies : List Reply
  deriving DecidableEq, Repr

/-- No fault exists: "the block never traps, halts, locks up or enters a fault state" (60_exceptions.md R348). -/
inductive Fault where
  deriving DecidableEq, Repr

/-- Why the model gives an instruction no meaning. -/
inductive Refusal where
  /-- an instruction without a meaning in this model; raised by an arm of exec only (safe); no arm raises it -/
  | notModelled (mnemonic : String)
  deriving DecidableEq, Repr

/-- What a meaning answers. -/
abbrev Result := Host.Outcome State Fault Refusal

/-- The block right after Reset, for parameters `p` (10_state.md R55): TXBUF holds `txbuf_init`. -/
def State.resetWith (p : Params) : State where
  hcrc := Config.crcPreset
  dstate := .huntSync1
  dfmt := 0
  did := 0
  didx := 0
  dcrc := 0
  dcrcx := 0
  dbuf := []
  rxq := Vector.replicate 7 []
  tokq := []
  nextId := 0
  txHdr := ⟨0, 0, 0⟩
  txStaged := false
  txSnap := ⟨0, 0, 0, 0, false⟩
  txsrc := .none
  txframe := []
  txpos := 0
  txbuf := p.txbufInit
  ctrl := Config.ctrlReset
  evtPend := 0
  evtMask := 0
  rxSel := 0
  errInfo := 0
  errCrc := 0
  cnt := ⟨0, 0, 0, 0, 0, 0, 0, 0⟩
  params := p
  inbox := []
  replies := []

/-- The parameters of State.reset. DESIGN CHOICE, unsafe (log 3, 4). -/
def Params.atReset : Params := ⟨Config.rxqDepthAtReset, Config.tokqDepthAtReset, Config.txbufInitAtReset⟩

/-- The machine right after reset, for the parameters the model names; no event is waiting (log 1). -/
def State.reset : State := State.resetWith Params.atReset

end Sys2Proof.Machine
end

