-- ==== Sys2Proof/Machine/Flags.lean ====
section
/-! DEFINITION. The block's flags: event bits, event counters, the interrupt level (60_exceptions.md R340, R341, R352;
10_state.md R47, R51, R52) and the control bits (R45). -/

namespace Sys2Proof.Machine

/-- The events of EVT_PEND (60_exceptions.md R340). -/
inductive Evt where
  | rxFrame | integrityErr | decodeErr | rxOvf | tokOvf | encErr | txDone | reject
  deriving DecidableEq, Repr

/-- The bit of an event in EVT_PEND and EVT_MASK (R340). -/
def Evt.bit : Evt → Nat
  | .rxFrame => 0
  | .integrityErr => 1
  | .decodeErr => 2
  | .rxOvf => 3
  | .tokOvf => 4
  | .encErr => 5
  | .txDone => 6
  | .reject => 7

/-- The byte whose only set bit is the event's. -/
def Evt.flag (e : Evt) : Byte := 1#8 <<< e.bit

/-- `sat_inc` (10_state.md R51). -/
def satInc (c : Half) : Half := if c = 0xFFFF then 0xFFFF else c + 1

/-- The counter an event increments (R340); REJECT has none. -/
def Evt.count (e : Evt) (c : Counters) : Counters :=
  match e with
  | .rxFrame => { c with rxok := satInc c.rxok }
  | .integrityErr => { c with integ := satInc c.integ }
  | .decodeErr => { c with decerr := satInc c.decerr }
  | .rxOvf => { c with rxovf := satInc c.rxovf }
  | .tokOvf => { c with tokdrop := satInc c.tokdrop }
  | .encErr => { c with encerr := satInc c.encerr }
  | .txDone => { c with txok := satInc c.txok }
  | .reject => c

/-- The counters after CNT_CLEAR and after reset (44_host_interface.md R311). -/
def Counters.zero : Counters := ⟨0, 0, 0, 0, 0, 0, 0, 0⟩

/-- IRQ (10_state.md R52): a level computed from the state an event leaves, no storage (44_host_interface.md R312). -/
def State.irq (s : State) : Bool := (s.evtPend &&& s.evtMask) != 0

/-- CTRL.AUTO_ACK_EN (R45). -/
def State.autoAck (s : State) : Bool := s.ctrl.getLsbD 0

/-- CTRL.AUTO_NACK_EN (R45). -/
def State.autoNack (s : State) : Bool := s.ctrl.getLsbD 1

end Sys2Proof.Machine
end

