-- ==== Sys2Proof/Machine/Ops.lean ====
section
/-! DEFINITION. The shared operations: buffers, queues, raising and acknowledging an event, replies, and taking the next
external event. -/

namespace Sys2Proof.Machine

/-! Buffers (TXBUF, DBUF). -/

/-- The canonical form of a buffer: indices strictly rising and below 4095, no byte that an unlisted index reads as. -/
abbrev Mem.wf (m : Mem) : Prop :=
  m.Pairwise (fun x y => x.1 < y.1) ∧ ∀ c ∈ m, c.1 < Config.maxPayload ∧ c.2 ≠ 0

/-- The byte at index `i`; an unlisted byte reads 0 (log 4, 5). -/
def Mem.read : Mem → Nat → Byte
  | [], _ => 0
  | (a, b) :: m, i => if a = i then b else Mem.read m i

/-- Storing `v` at index `i` of a list in canonical form; a stored 0 removes the entry. -/
def Mem.put : Mem → Nat → Byte → Mem
  | [], i, v => if v = 0 then [] else [(i, v)]
  | (a, b) :: m, i, v =>
    if i < a then (if v = 0 then (a, b) :: m else (i, v) :: (a, b) :: m)
    else if i = a then (if v = 0 then m else (i, v) :: m)
    else (a, b) :: Mem.put m i v

/-- Storing `v` at index `i`; an index the buffer does not have stores nothing (log 9: no run gets there). -/
def Mem.write (m : Mem) (i : Nat) (v : Byte) : Mem :=
  if i < Config.maxPayload then m.put i v else m

/-- Bytes 0..n-1 of a buffer, `BUF[0..n)` (00_scope.md R9). -/
def Mem.slice (m : Mem) (n : Nat) : List Byte := (List.range n).map m.read

/-! Events: the block's only form of exception. -/

/-- `raise E` (60_exceptions.md R341): set the pending bit and count; nothing is saved, no control transfer happens, and the
rule that raised it runs on (R348). -/
def State.raise (e : Evt) (s : State) : State :=
  { s with evtPend := s.evtPend ||| e.flag, cnt := e.count s.cnt }

/-- The return from an event (R350): the host's write-one-to-clear of EVT_PEND (44_host_interface.md R307). -/
def State.acknowledge (v : Byte) (s : State) : State :=
  { s with evtPend := s.evtPend &&& ~~~v }

/-- An external event returns `r` to who presented it (log 2). -/
def State.reply (r : Reply) (s : State) : State :=
  { s with replies := s.replies ++ [r] }

/-! Queues. -/

/-- `push(RXQ[c], r)` (00_scope.md R11). -/
def State.pushRx (c : Fin 7) (r : FrameRecord) (s : State) : State :=
  { s with rxq := s.rxq.set c (s.rxq[c] ++ [r]) }

/-- `pop(RXQ[c])`. -/
def State.popRx (c : Fin 7) (s : State) : State :=
  { s with rxq := s.rxq.set c s.rxq[c].tail }

/-- `gen_token(k)` (43_demux_tokens.md R270): queue the token, or drop it and raise TOK_OVF when TOKQ is full. -/
def State.genToken (k : TokenRecord) (s : State) : State :=
  if s.tokq.length < s.params.tokqDepth then { s with tokq := s.tokq ++ [k] }
  else s.raise .tokOvf

/-- The id NEXT_ID gives away, and its increment modulo 256 (41_encoder_mux.md R189). -/
def State.takeId (s : State) : Byte × State :=
  (s.nextId, { s with nextId := s.nextId + 1 })

/-! Taking the next external event (log 1). -/

/-- The instruction an external event is; a write of a defined command to CMD is that command (44_host_interface.md R308). -/
def Stimulus.instr : Stimulus → Instr
  | .rxByte b => .rxByte b
  | .txPull => .txPull
  | .hostRead off => .hostRead off
  | .hostWrite off v => decodeWrite off v
  | .reset => .reset

/-- The next external event as an instruction, and the state with the event taken; none when no event is waiting. -/
def State.fetch (s : State) : Option (Instr × State) :=
  match s.inbox with
  | [] => none
  | e :: rest => some (e.instr, { s with inbox := rest })

/-- `s` with the instruction of a table word in place of what comes next (log 10, 11). A command word and a host write are the
next external event. A format word is held by a decoder that has received a frame of zeros with it up to the last CRC byte,
which is the next event; a function byte is the next RX byte, for a decoder about to receive payload byte 0 of a one-byte
frame of its type. Such decoder states are those an RX stream leads to. -/
def State.place (s : State) (nbits w : Nat) : State :=
  match tableSpace nbits w with
  | .format =>
    { s with
      dstate := .readCrcLo, dfmt := BitVec.ofNat 16 w, did := 0, didx := fmtLen (BitVec.ofNat 16 w)
      dcrc := 0, dcrcx := 0, dbuf := [], inbox := .rxByte 0 :: s.inbox }
  | .function t =>
    { s with
      dstate := .readPayload, dfmt := formatWord t 1, did := 0, didx := 0
      dcrc := 0, dcrcx := 0, inbox := .rxByte (BitVec.ofNat 8 w) :: s.inbox }
  | .hostWrite =>
    { s with inbox := .hostWrite (BitVec.ofNat 16 w) (BitVec.ofNat 32 (w / 2 ^ 16)) :: s.inbox }
  | _ => { s with inbox := .hostWrite Config.offCmd (BitVec.ofNat 32 w) :: s.inbox }

end Sys2Proof.Machine
end

