-- ==== Sys2Proof/Machine/Crc.lean ====
section
/-! DEFINITION. The CRC-16/CCITT (XModem) engine (40_crc.md) and its two commands. -/

namespace Sys2Proof.Machine

/-- One shift-XOR step against the polynomial (R151). -/
def crcStep (c : Half) : Half :=
  if c.getLsbD 15 then (c <<< 1) ^^^ Config.crcPoly else c <<< 1

/-- `n` shift-XOR steps. -/
def crcSteps : Nat → Half → Half
  | 0, c => c
  | n + 1, c => crcSteps n (crcStep c)

/-- CRC_TABLE[b] (R151), the constant table of 10_state.md R31. -/
def crcTable (b : Byte) : Half := crcSteps 8 (b.setWidth 16 <<< 8)

/-- `crc_update(state, byte)` (R152): one table look-up. -/
def crcUpdate (c : Half) (b : Byte) : Half := (c <<< 8) ^^^ crcTable (hiByte c ^^^ b)

/-- The bitwise form of `crc_update` (R154), eight steps on the whole register. -/
def crcUpdateBitwise (c : Half) (b : Byte) : Half := crcSteps 8 (c ^^^ (b.setWidth 16 <<< 8))

/-- `crc_update` folded over bytes from a start state (R153, R158 item 3). -/
def crcFrom (c : Half) (bs : List Byte) : Half := bs.foldl crcUpdate c

/-- `crc_of(bytes)` (R153). -/
def crcOf (bs : List Byte) : Half := crcFrom Config.crcPreset bs

/-- CRC_INIT (R155): HCRC becomes the preset. -/
def execCrcInit (s : State) : Result := .next { s with hcrc := Config.crcPreset }

/-- CRC_BYTE (R156): HCRC takes one byte in. -/
def execCrcByte (b : Byte) (s : State) : Result := .next { s with hcrc := crcUpdate s.hcrc b }

end Sys2Proof.Machine
end

