-- ==== Sys2Proof/Machine/Encoder.lean ====
section
/-! DEFINITION. The frame encoder and the transmit multiplexer (41_encoder_mux.md): TX_SEND, TX_CANCEL, TX_PULL. -/

namespace Sys2Proof.Machine

/-- The bytes of a frame on the wire (30_encoding.md R100): sync, format word, id, payload, CRC, high bytes first (R85). -/
def frameBytes (fw : Half) (id : Byte) (p : List Byte) (c : Half) : List Byte :=
  [Config.sync1, Config.sync2, hiByte fw, loByte fw, id] ++ p ++ [hiByte c, loByte c]

/-- `encode_frame(t, id, p)` (R182). -/
def encodeFrame (t : BitVec 4) (id : Byte) (p : List Byte) : List Byte :=
  frameBytes (formatWord t (BitVec.ofNat 12 p.length)) id p (crcOf p)

/-- `token_frame(k, id)` (R187). -/
def tokenFrame (k : TokenRecord) (id : Byte) : List Byte :=
  match k.kind with
  | .ack => encodeFrame Config.typeAck id [k.echo]
  | .nack => encodeFrame Config.typeNack id [k.echo, k.reason]

/-- TX_SEND (R184). -/
def execTxSend (autoId : Bool) (s : State) : Result :=
  if s.txStaged then .next (s.raise .reject)
  else if s.txHdr.type.toNat > Config.maxType ∨ s.txHdr.len.toNat > Config.maxPayload then .next (s.raise .encErr)
  else .next { s with
    txStaged := true
    txSnap := {
      type := s.txHdr.type.setWidth 4
      id := s.txHdr.id
      len := s.txHdr.len.setWidth 12
      crc := crcOf (s.txbuf.slice s.txHdr.len.toNat)
      autoid := autoId } }

/-- TX_CANCEL (R186). -/
def execTxCancel (s : State) : Result :=
  if s.txStaged = true ∧ s.txsrc ≠ .host then .next { s with txStaged := false }
  else .next (s.raise .reject)

/-- The staged frame's bytes with id `id`, as R190 builds TXFRAME from TX_SNAP and TXBUF. -/
def State.hostFrame (id : Byte) (s : State) : List Byte :=
  frameBytes (formatWord s.txSnap.type s.txSnap.len) id (s.txbuf.slice s.txSnap.len.toNat) s.txSnap.crc

/-- The multiplexer starts the token `k`, taken from the head of TOKQ, with `rest` left (R188, R189, R190). -/
def State.startToken (k : TokenRecord) (rest : List TokenRecord) (s : State) : State :=
  let (id, s1) := s.takeId
  { s1 with tokq := rest, txframe := tokenFrame k id, txsrc := .token, txpos := 0 }

/-- The multiplexer starts the staged host frame (R189, R190); an automatic id is written back to TX_HDR.ID (R191). -/
def State.startHost (s : State) : State :=
  if s.txSnap.autoid then
    let (id, s1) := s.takeId
    { s1 with
      txSnap := { s1.txSnap with id := id }
      txHdr := { s1.txHdr with id := id }
      txframe := s1.hostFrame id, txsrc := .host, txpos := 0 }
  else
    { s with txframe := s.hostFrame s.txSnap.id, txsrc := .host, txpos := 0 }

/-- What is in transmission when the TX wire asks for a byte (R188): the frame already started, else the head of TOKQ, else
the staged frame, else nothing. -/
def State.selectFrame (s : State) : Option State :=
  match s.txsrc with
  | .none =>
    match s.tokq with
    | k :: rest => some (s.startToken k rest)
    | [] => if s.txStaged then some s.startHost else none
  | _ => some s

/-- The last byte of a frame has been pulled (R190, R192). -/
def State.finishFrame (s : State) : State :=
  let s1 :=
    match s.txsrc with
    | .host => ({ s with txStaged := false } : State).raise .txDone
    | _ => { s with cnt := { s.cnt with toktx := satInc s.cnt.toktx } }
  { s1 with txsrc := .none, txframe := [], txpos := 0 }

/-- The next byte of the frame in transmission (R190). TXPOS is below the frame's length in every state a run reaches
(10_state.md R54); past it nothing is left to send and the answer is IDLE (log 8). -/
def State.sendByte (s : State) : State :=
  match s.txframe.drop s.txpos.toNat with
  | [] => s.reply .idle
  | [b] => ({ s with txpos := s.txpos + 1 } : State).finishFrame.reply (.byte b)
  | b :: _ :: _ => ({ s with txpos := s.txpos + 1 } : State).reply (.byte b)

/-- TX_PULL (R190); with nothing to send the answer is IDLE and nothing changes (R193). -/
def execTxPull (s : State) : Result :=
  match s.selectFrame with
  | none => .next (s.reply .idle)
  | some s1 => .next s1.sendByte

end Sys2Proof.Machine
end

