-- ==== Sys2Proof/Machine/Operands.lean ====
section
/-! DEFINITION. The operand forms of the host port: offsets (20_memory.md R81 to R84), and the registers and views behind
them (10_state.md R39 to R52; 44_host_interface.md R301). -/

namespace Sys2Proof.Machine

/-- The registers of the host register space (20_memory.md R82). -/
inductive Reg where
  | ctrl | status | evtPend | evtMask | cmd | hcrc | txHdr | rxSel | rxHdr | rxCrc | errInfo | errCrc
  | cnt0 | cnt1 | cnt2 | cnt3 | nextId
  deriving DecidableEq, Repr

/-- What a host offset names. -/
inductive Target where
  /-- `off[1:0] != 0` (R81) -/
  | misaligned
  /-- no register and no window byte (R84) -/
  | unmapped
  /-- a register (R82) -/
  | reg (r : Reg)
  /-- TXBUF[i] (R83) -/
  | txbuf (i : Nat)
  /-- byte i of the RX window (R83) -/
  | rxwin (i : Nat)
  deriving DecidableEq, Repr

/-- The aligned offsets of the registers (R82). -/
def regAt (off : Half) : Option Reg :=
  match off with
  | 0x000#16 => some .ctrl
  | 0x004#16 => some .status
  | 0x008#16 => some .evtPend
  | 0x00C#16 => some .evtMask
  | 0x010#16 => some .cmd
  | 0x014#16 => some .hcrc
  | 0x018#16 => some .txHdr
  | 0x01C#16 => some .rxSel
  | 0x020#16 => some .rxHdr
  | 0x024#16 => some .rxCrc
  | 0x028#16 => some .errInfo
  | 0x02C#16 => some .errCrc
  | 0x030#16 => some .cnt0
  | 0x034#16 => some .cnt1
  | 0x038#16 => some .cnt2
  | 0x03C#16 => some .cnt3
  | 0x040#16 => some .nextId
  | _ => none

/-- What an offset names (R81 to R84): the TXBUF window is 0x4000..0x7FF8, the RX window 0x8000..0xBFF8. -/
def target (off : Half) : Target :=
  if off.extractLsb' 0 2 ≠ 0 then .misaligned
  else if 0x4000 ≤ off.toNat ∧ off.toNat ≤ 0x7FF8 then .txbuf ((off.toNat - 0x4000) / 4)
  else if 0x8000 ≤ off.toNat ∧ off.toNat ≤ 0xBFF8 then .rxwin ((off.toNat - 0x8000) / 4)
  else match regAt off with
    | some r => .reg r
    | none => .unmapped

/-- The 4-bit encoding of DSTATE (10_state.md R33). -/
def DState.code : DState → BitVec 4
  | .huntSync1 => 0
  | .huntSync2 => 1
  | .readFormatHi => 2
  | .readFormatLo => 3
  | .readId => 4
  | .readPayload => 5
  | .readCrcHi => 6
  | .readCrcLo => 7
  | .emit => 8

/-- The 2-bit encoding of TXSRC (R42). -/
def TxSrc.code : TxSrc → BitVec 2
  | .none => 0
  | .host => 1
  | .token => 2

/-- TX_HDR as a word (R40). -/
def TxHdr.word (h : TxHdr) : Word := h.len ++ (h.id ++ h.type)

/-- The fields of a word written to TX_HDR (44_host_interface.md R305). -/
def TxHdr.ofWord (v : Word) : TxHdr := ⟨v.extractLsb' 0 8, v.extractLsb' 8 8, v.extractLsb' 16 16⟩

/-- A channel number, or none for a number that names no channel (43_demux_tokens.md R260, R263). -/
def channelOf (n : Nat) : Option (Fin 7) := if h : n < 7 then some ⟨n, h⟩ else none

/-- The queue RX_SEL names; empty for RX_SEL = 7 (10_state.md R48). -/
def State.selQueue (s : State) : List FrameRecord :=
  match channelOf s.rxSel.toNat with
  | some c => s.rxq[c]
  | none => []

/-- STATUS.RXNE (R46): bit c is 1 iff RXQ[c] is not empty. -/
def State.rxne (s : State) : BitVec 7 :=
  BitVec.ofBool (!s.rxq[6].isEmpty) ++ (BitVec.ofBool (!s.rxq[5].isEmpty) ++ (BitVec.ofBool (!s.rxq[4].isEmpty) ++
    (BitVec.ofBool (!s.rxq[3].isEmpty) ++ (BitVec.ofBool (!s.rxq[2].isEmpty) ++
      (BitVec.ofBool (!s.rxq[1].isEmpty) ++ BitVec.ofBool (!s.rxq[0].isEmpty))))))

/-- STATUS (R46), its fields from bit 31 down; the counts fit their eight bits in every state a run reaches (log 9). -/
def State.status (s : State) : Word :=
  BitVec.ofNat 8 s.selQueue.length ++ (BitVec.ofNat 8 s.tokq.length ++ (0#1 ++ (s.rxne ++ (BitVec.ofBool s.irq ++
    (s.txsrc.code ++ (BitVec.ofBool s.txStaged ++ s.dstate.code))))))

/-- RX_HDR (R49): VALID, length, id and type of the selected queue's head, or 0. -/
def State.rxHdr (s : State) : Word :=
  match s.selQueue with
  | [] => 0
  | h :: _ => 1#1 ++ (0#3 ++ (h.len ++ (h.id ++ (0#4 ++ h.type))))

/-- RX_CRC (R49). -/
def State.rxCrc (s : State) : Word :=
  match s.selQueue with
  | [] => 0
  | h :: _ => h.crc.setWidth 32

/-- Byte `i` of the RX window (20_memory.md R83): 0 beyond the head frame's length or with no frame. -/
def State.rxWindow (s : State) (i : Nat) : Byte :=
  match s.selQueue with
  | [] => 0
  | h :: _ => if i < h.len.toNat then h.payload.getD i 0 else 0

/-- The value of a register read (44_host_interface.md R301). -/
def State.readReg (s : State) : Reg → Word
  | .ctrl => s.ctrl.setWidth 32
  | .status => s.status
  | .evtPend => s.evtPend.setWidth 32
  | .evtMask => s.evtMask.setWidth 32
  | .cmd => 0
  | .hcrc => s.hcrc.setWidth 32
  | .txHdr => s.txHdr.word
  | .rxSel => s.rxSel.setWidth 32
  | .rxHdr => s.rxHdr
  | .rxCrc => s.rxCrc
  | .errInfo => s.errInfo
  | .errCrc => s.errCrc
  | .cnt0 => s.cnt.integ ++ s.cnt.rxok
  | .cnt1 => s.cnt.rxovf ++ s.cnt.decerr
  | .cnt2 => s.cnt.toktx ++ s.cnt.txok
  | .cnt3 => s.cnt.encerr ++ s.cnt.tokdrop
  | .nextId => s.nextId.setWidth 32

/-- The value of a read of what an offset names; a refused one reads 0 (20_memory.md R81, R83, R84). -/
def State.readTarget (s : State) : Target → Word
  | .misaligned => 0
  | .unmapped => 0
  | .reg r => s.readReg r
  | .txbuf i => (s.txbuf.read i).setWidth 32
  | .rxwin i => (s.rxWindow i).setWidth 32

end Sys2Proof.Machine
end

