-- ==== Sys2Proof/Machine/Demux.lean ====
section
/-! DEFINITION. The demultiplexer and the token commands (43_demux_tokens.md): RX_POP, RXQ_CLEAR, TOK_ACK, TOK_NACK,
TOK_CLEAR, and the delivery of a valid frame. -/

namespace Sys2Proof.Machine

/-- `channel(t)` (R260). -/
def channel (t : BitVec 4) : Fin 7 :=
  if t = Config.typeConfiguration then 0
  else if t = Config.typeCommand then 1
  else if t = Config.typeData then 2
  else if t = Config.typeAck then 3
  else if t = Config.typeNack then 4
  else if t = Config.typeError then 5
  else 6

/-- The types whose delivery is acknowledged: COMMAND and DATA (R266). -/
def ackedType (t : BitVec 4) : Bool := t == Config.typeCommand || t == Config.typeData

/-- `deliver(r)` (R261): queue the frame and acknowledge it, or drop it when its channel is full (R262). -/
def State.deliver (r : FrameRecord) (s : State) : State :=
  if s.rxq[channel r.type].length < s.params.rxqDepth then
    let s1 := (s.pushRx (channel r.type) r).raise .rxFrame
    if ackedType r.type = true ∧ s1.autoAck = true then s1.genToken ⟨.ack, r.id, 0⟩ else s1
  else s.raise .rxOvf

/-- RX_POP (R263): REJECT for a number that is no channel or for an empty queue. -/
def execRxPop (c : Byte) (s : State) : Result :=
  match channelOf c.toNat with
  | none => .next (s.raise .reject)
  | some ch => if s.rxq[ch].isEmpty then .next (s.raise .reject) else .next (s.popRx ch)

/-- RXQ_CLEAR (R264). -/
def execRxqClear (s : State) : Result := .next { s with rxq := Vector.replicate 7 [] }

/-- TOK_ACK (R275). -/
def execTokAck (echo : Byte) (s : State) : Result := .next (s.genToken ⟨.ack, echo, 0⟩)

/-- TOK_NACK (R276). -/
def execTokNack (echo reason : Byte) (s : State) : Result := .next (s.genToken ⟨.nack, echo, reason⟩)

/-- TOK_CLEAR (R277): a token already in transmission is not affected. -/
def execTokClear (s : State) : Result := .next { s with tokq := [] }

end Sys2Proof.Machine
end

