-- ==== Sys2Proof/Machine/Receiver.lean ====
section
/-! DEFINITION. The streaming frame decoder (42_decoder.md): RX_BYTE, EMIT for each of the sixteen frame types, DEC_ABORT, and
the function bytes. -/

namespace Sys2Proof.Machine

/-- `integrity_error()` (R231) for a frame of type `t` and length `len`: ERR_INFO, ERR_CRC, INTEGRITY_ERR, and the NACK of R267. -/
def State.integrityError (t : BitVec 4) (len : BitVec 12) (s : State) : State :=
  let s1 := ({ s with
    errInfo := 0#4 ++ (len ++ (s.did ++ (0#4 ++ t)))
    errCrc := s.dcrc ++ s.dcrcx } : State).raise .integrityErr
  if s1.autoNack then s1.genToken ⟨.nack, s1.did, Config.nackIntegrity⟩ else s1

/-- The frame record EMIT builds from the decoder's registers (R230). -/
def State.received (t : BitVec 4) (len : BitVec 12) (s : State) : FrameRecord :=
  ⟨t, s.did, len, s.dbuf.slice len.toNat, s.dcrcx⟩

/-- EMIT (R230) for a frame whose format word is `{t, len}`: deliver it or report the integrity error, then hunt for sync. -/
def State.emitFrame (t : BitVec 4) (len : BitVec 12) (s : State) : State :=
  let s1 := if s.dcrc = s.dcrcx then s.deliver (s.received t len) else s.integrityError t len
  { s1 with dstate := .huntSync1 }

/-- EMIT on the format word the decoder holds. -/
def State.emit (s : State) : State := s.emitFrame (fmtType s.dfmt) (fmtLen s.dfmt)

/-- HUNT_SYNC_1 (R223). -/
def State.rxHunt1 (b : Byte) (s : State) : State :=
  if b = Config.sync1 then { s with dstate := .huntSync2 } else s

/-- HUNT_SYNC_2 (R224): the second sync byte starts a frame and clears the working registers. -/
def State.rxHunt2 (b : Byte) (s : State) : State :=
  if b = Config.sync2 then
    { s with dfmt := 0, did := 0, didx := 0, dcrc := Config.crcPreset, dcrcx := 0, dstate := .readFormatHi }
  else if b = Config.sync1 then s
  else { s with dstate := .huntSync1 }

/-- READ_FORMAT_HI (R225). -/
def State.rxFormatHi (b : Byte) (s : State) : State :=
  { s with dfmt := halfOf b (loByte s.dfmt), dstate := .readFormatLo }

/-- READ_FORMAT_LO (R225). -/
def State.rxFormatLo (b : Byte) (s : State) : State :=
  { s with dfmt := halfOf (hiByte s.dfmt) b, dstate := .readId }

/-- READ_ID (R226). -/
def State.rxId (b : Byte) (s : State) : State :=
  { s with did := b, dstate := if fmtLen s.dfmt = 0 then .readCrcHi else .readPayload }

/-- READ_PAYLOAD (R227): buffer the byte and fold it into the running CRC. -/
def State.rxPayload (b : Byte) (s : State) : State :=
  { s with
    dbuf := s.dbuf.write s.didx.toNat b
    dcrc := crcUpdate s.dcrc b
    didx := s.didx + 1
    dstate := if s.didx + 1 = fmtLen s.dfmt then .readCrcHi else .readPayload }

/-- READ_CRC_HI (R228). -/
def State.rxCrcHi (b : Byte) (s : State) : State :=
  { s with dcrcx := halfOf b (loByte s.dcrcx), dstate := .readCrcLo }

/-- READ_CRC_LO (R229): the frame is complete. -/
def State.rxCrcLo (b : Byte) (s : State) : State :=
  { s with dcrcx := halfOf (hiByte s.dcrcx) b, dstate := .emit }

/-- The RX_BYTE event (R222): one rule for the state, and EMIT in the same event as the last CRC byte. No run holds EMIT
between events (10_state.md R33); from a state that does, EMIT is completed and the byte is hunted for sync (log 7). -/
def State.rxByte (b : Byte) (s : State) : State :=
  match s.dstate with
  | .huntSync1 => s.rxHunt1 b
  | .huntSync2 => s.rxHunt2 b
  | .readFormatHi => s.rxFormatHi b
  | .readFormatLo => s.rxFormatLo b
  | .readId => s.rxId b
  | .readPayload => s.rxPayload b
  | .readCrcHi => s.rxCrcHi b
  | .readCrcLo => (s.rxCrcLo b).emit
  | .emit => s.emit.rxHunt1 b

/-- RX_BYTE (R222). -/
def execRxByte (b : Byte) (s : State) : Result := .next (s.rxByte b)

/-- The states in which a frame has begun and is not complete (R233). -/
def DState.inFrame : DState → Bool
  | .readFormatHi | .readFormatLo | .readId | .readPayload | .readCrcHi | .readCrcLo => true
  | .huntSync1 | .huntSync2 | .emit => false

/-- DEC_ABORT (R233). -/
def execDecAbort (s : State) : Result :=
  let s1 := if s.dstate.inFrame then s.raise .decodeErr else s
  .next { s1 with dstate := .huntSync1 }

/-! The frame types: EMIT of a frame of that type (R230, 43_demux_tokens.md R260, R261; log 10). -/

/-- FRAME_UNASSIGNED_0: channel 6 (30_encoding.md R108). -/
def execFrameUnassigned0 (len : BitVec 12) (s : State) : Result := .next (s.emitFrame 0x0 len)

/-- FRAME_CONFIGURATION: channel 0 (R107, R260). -/
def execFrameConfiguration (len : BitVec 12) (s : State) : Result := .next (s.emitFrame Config.typeConfiguration len)

/-- FRAME_COMMAND: channel 1, acknowledged (R107, R260, R266). -/
def execFrameCommand (len : BitVec 12) (s : State) : Result := .next (s.emitFrame Config.typeCommand len)

/-- FRAME_DATA: channel 2, acknowledged (R107, R260, R266). -/
def execFrameData (len : BitVec 12) (s : State) : Result := .next (s.emitFrame Config.typeData len)

/-- FRAME_UNASSIGNED_4: channel 6 (R108). -/
def execFrameUnassigned4 (len : BitVec 12) (s : State) : Result := .next (s.emitFrame 0x4 len)

/-- FRAME_UNASSIGNED_5: channel 6 (R108). -/
def execFrameUnassigned5 (len : BitVec 12) (s : State) : Result := .next (s.emitFrame 0x5 len)

/-- FRAME_UNASSIGNED_6: channel 6 (R108). -/
def execFrameUnassigned6 (len : BitVec 12) (s : State) : Result := .next (s.emitFrame 0x6 len)

/-- FRAME_UNASSIGNED_7: channel 6 (R108). -/
def execFrameUnassigned7 (len : BitVec 12) (s : State) : Result := .next (s.emitFrame 0x7 len)

/-- FRAME_ACK: channel 3 (R107, R260); delivered, never acted on (R269). -/
def execFrameAck (len : BitVec 12) (s : State) : Result := .next (s.emitFrame Config.typeAck len)

/-- FRAME_NACK: channel 4 (R107, R260); delivered, never acted on (R269). -/
def execFrameNack (len : BitVec 12) (s : State) : Result := .next (s.emitFrame Config.typeNack len)

/-- FRAME_ERROR: channel 5 (R107, R111, R260). -/
def execFrameError (len : BitVec 12) (s : State) : Result := .next (s.emitFrame Config.typeError len)

/-- FRAME_UNASSIGNED_B: channel 6 (R108). -/
def execFrameUnassignedB (len : BitVec 12) (s : State) : Result := .next (s.emitFrame 0xB len)

/-- FRAME_UNASSIGNED_C: channel 6 (R108). -/
def execFrameUnassignedC (len : BitVec 12) (s : State) : Result := .next (s.emitFrame 0xC len)

/-- FRAME_UNASSIGNED_D: channel 6 (R108). -/
def execFrameUnassignedD (len : BitVec 12) (s : State) : Result := .next (s.emitFrame 0xD len)

/-- FRAME_UNASSIGNED_E: channel 6 (R108). -/
def execFrameUnassignedE (len : BitVec 12) (s : State) : Result := .next (s.emitFrame 0xE len)

/-- FRAME_UNASSIGNED_F: channel 6 (R108). -/
def execFrameUnassignedF (len : BitVec 12) (s : State) : Result := .next (s.emitFrame 0xF len)

/-! The function bytes (30_encoding.md R112): carried in payload byte 0 and not decoded by the block, so what a function byte
does is what that byte does on the RX wire (R222; log 11). -/

/-- FN_SET_BAUD_RATE (R112, R113). -/
def execFnSetBaudRate (s : State) : Result := .next (s.rxByte Config.fnSetBaudRate)

/-- FN_SET_ACK_TIMEOUT (R112). -/
def execFnSetAckTimeout (s : State) : Result := .next (s.rxByte Config.fnSetAckTimeout)

/-- FN_TRANSMIT_TOKEN (R112). -/
def execFnTransmitToken (s : State) : Result := .next (s.rxByte Config.fnTransmitToken)

/-- FN_QUERY_FILE (R112). -/
def execFnQueryFile (s : State) : Result := .next (s.rxByte Config.fnQueryFile)

/-- FN_QUERY_FILE_CRC (R112). -/
def execFnQueryFileCrc (s : State) : Result := .next (s.rxByte Config.fnQueryFileCrc)

/-- FN_RECEIVE_FILE (R112). -/
def execFnReceiveFile (s : State) : Result := .next (s.rxByte Config.fnReceiveFile)

/-- FN_TRANSMIT_FILE (R112). -/
def execFnTransmitFile (s : State) : Result := .next (s.rxByte Config.fnTransmitFile)

end Sys2Proof.Machine
end

