-- ==== Sys2Proof/Machine/HostPort.lean ====
section
/-! DEFINITION. The host port (44_host_interface.md): HOST_READ, HOST_WRITE, the command dispatch, NOP, CNT_CLEAR; and RESET
(70_reset_and_hazards.md R380). -/

namespace Sys2Proof.Machine

/-- A read of what an offset names: a misaligned or unmapped one raises REJECT, any other changes nothing (R300,
20_memory.md R89). -/
def State.touch (t : Target) (s : State) : State :=
  match t with
  | .misaligned => s.raise .reject
  | .unmapped => s.raise .reject
  | .reg _ | .txbuf _ | .rxwin _ => s

/-- HOST_READ (R300): the value is read before the event ends, and REJECT raised for a refused offset. -/
def execHostRead (off : Half) (s : State) : Result :=
  .next ((s.touch (target off)).reply (.word (s.readTarget (target off))))

/-- NOP (R310). -/
def execNop (s : State) : Result := .next s

/-- CNT_CLEAR (R311): all eight counters; EVT_PEND, ERR_INFO and ERR_CRC stay. -/
def execCntClear (s : State) : Result := .next { s with cnt := Counters.zero }

/-- `execute(v)` (R308): the command the word is, or REJECT for a reserved opcode (30_encoding.md R122). -/
def execute (v : Word) (s : State) : Result :=
  match decodeCommand v with
  | .ok .nop => execNop s
  | .ok .crcInit => execCrcInit s
  | .ok (.crcByte b) => execCrcByte b s
  | .ok (.txSend a) => execTxSend a s
  | .ok .txCancel => execTxCancel s
  | .ok (.rxPop c) => execRxPop c s
  | .ok .rxqClear => execRxqClear s
  | .ok .decAbort => execDecAbort s
  | .ok (.tokAck e) => execTokAck e s
  | .ok (.tokNack e r) => execTokNack e r s
  | .ok .tokClear => execTokClear s
  | .ok .cntClear => execCntClear s
  | _ => .next (s.raise .reject)

/-- A write to a register (R302 to R307): bits a register does not implement are ignored; a read-only register, or TX_HDR
while a frame is staged, raises REJECT. -/
def writeReg (r : Reg) (v : Word) (s : State) : Result :=
  match r with
  | .ctrl => .next { s with ctrl := v.extractLsb' 0 2 }
  | .evtPend => .next (s.acknowledge (v.extractLsb' 0 8))
  | .evtMask => .next { s with evtMask := v.extractLsb' 0 8 }
  | .cmd => execute v s
  | .txHdr => if s.txStaged then .next (s.raise .reject) else .next { s with txHdr := TxHdr.ofWord v }
  | .rxSel => .next { s with rxSel := v.extractLsb' 0 3 }
  | .nextId => .next { s with nextId := v.extractLsb' 0 8 }
  | .status | .hcrc | .rxHdr | .rxCrc | .errInfo | .errCrc | .cnt0 | .cnt1 | .cnt2 | .cnt3 => .next (s.raise .reject)

/-- HOST_WRITE (R302). -/
def execHostWrite (off : Half) (v : Word) (s : State) : Result :=
  match target off with
  | .misaligned => .next (s.raise .reject)
  | .unmapped => .next (s.raise .reject)
  | .rxwin _ => .next (s.raise .reject)
  | .txbuf i =>
    if s.txStaged then .next (s.raise .reject)
    else .next { s with txbuf := s.txbuf.write i (v.extractLsb' 0 8) }
  | .reg r => writeReg r v s

/-- RESET (70_reset_and_hazards.md R380): every state element takes its value of 10_state.md R55 in one step. The parameters
are fixed, and what the environment has still to present and has already been answered is not the block's (log 1, 2). -/
def execReset (s : State) : Result :=
  .next { State.resetWith s.params with inbox := s.inbox, replies := s.replies }

end Sys2Proof.Machine
end

