-- ==== Sys2Proof/Machine/Dispatch.lean ====
section
/-! DEFINITION. One arm per constructor of Instr. -/

namespace Sys2Proof.Machine

def exec (i : Instr) (s : State) : Host.Outcome State Fault Refusal :=
  match i with
  | .nop => Sys2Proof.Machine.execNop s
  | .crcInit => Sys2Proof.Machine.execCrcInit s
  | .crcByte b => Sys2Proof.Machine.execCrcByte b s
  | .txSend autoId => Sys2Proof.Machine.execTxSend autoId s
  | .txCancel => Sys2Proof.Machine.execTxCancel s
  | .rxPop c => Sys2Proof.Machine.execRxPop c s
  | .rxqClear => Sys2Proof.Machine.execRxqClear s
  | .decAbort => Sys2Proof.Machine.execDecAbort s
  | .tokAck echo => Sys2Proof.Machine.execTokAck echo s
  | .tokNack echo reason => Sys2Proof.Machine.execTokNack echo reason s
  | .tokClear => Sys2Proof.Machine.execTokClear s
  | .cntClear => Sys2Proof.Machine.execCntClear s
  | .frameUnassigned0 len => Sys2Proof.Machine.execFrameUnassigned0 len s
  | .frameConfiguration len => Sys2Proof.Machine.execFrameConfiguration len s
  | .frameCommand len => Sys2Proof.Machine.execFrameCommand len s
  | .frameData len => Sys2Proof.Machine.execFrameData len s
  | .frameUnassigned4 len => Sys2Proof.Machine.execFrameUnassigned4 len s
  | .frameUnassigned5 len => Sys2Proof.Machine.execFrameUnassigned5 len s
  | .frameUnassigned6 len => Sys2Proof.Machine.execFrameUnassigned6 len s
  | .frameUnassigned7 len => Sys2Proof.Machine.execFrameUnassigned7 len s
  | .frameAck len => Sys2Proof.Machine.execFrameAck len s
  | .frameNack len => Sys2Proof.Machine.execFrameNack len s
  | .frameError len => Sys2Proof.Machine.execFrameError len s
  | .frameUnassignedB len => Sys2Proof.Machine.execFrameUnassignedB len s
  | .frameUnassignedC len => Sys2Proof.Machine.execFrameUnassignedC len s
  | .frameUnassignedD len => Sys2Proof.Machine.execFrameUnassignedD len s
  | .frameUnassignedE len => Sys2Proof.Machine.execFrameUnassignedE len s
  | .frameUnassignedF len => Sys2Proof.Machine.execFrameUnassignedF len s
  | .fnSetBaudRate => Sys2Proof.Machine.execFnSetBaudRate s
  | .fnSetAckTimeout => Sys2Proof.Machine.execFnSetAckTimeout s
  | .fnTransmitToken => Sys2Proof.Machine.execFnTransmitToken s
  | .fnQueryFile => Sys2Proof.Machine.execFnQueryFile s
  | .fnQueryFileCrc => Sys2Proof.Machine.execFnQueryFileCrc s
  | .fnReceiveFile => Sys2Proof.Machine.execFnReceiveFile s
  | .fnTransmitFile => Sys2Proof.Machine.execFnTransmitFile s
  | .rxByte b => Sys2Proof.Machine.execRxByte b s
  | .txPull => Sys2Proof.Machine.execTxPull s
  | .hostRead off => Sys2Proof.Machine.execHostRead off s
  | .hostWrite off v => Sys2Proof.Machine.execHostWrite off v s
  | .reset => Sys2Proof.Machine.execReset s

end Sys2Proof.Machine
end

