-- ==== Sys2Proof/Machine/Step.lean ====
section
/-! DEFINITION. One step: the next external event (log 1). -/

namespace Sys2Proof.Machine

/-- The block takes the next external event and performs it, whole, in one step (10_state.md R30). It is passive: with no event
waiting nothing changes. -/
def step (s : State) : Host.Outcome State Fault Refusal :=
  match s.fetch with
  | none => .next s
  | some (i, s1) => exec i s1

/-- `s` with a table word placed where the next step takes its instruction from (log 10, 11). -/
def State.withFetchWord (s : State) (nbits w : Nat) : State := s.place nbits w

end Sys2Proof.Machine
end

