-- ==== Sys2Proof/Machine/Assembler.lean ====
section
/-! DEFINITION. The assembler notation of 30_encoding.md R125: programs of the spec as lists of external events. -/

namespace Sys2Proof.Machine

/-- The offset of a register (20_memory.md R82). -/
def Reg.offset : Reg → Half
  | .ctrl => 0x000
  | .status => 0x004
  | .evtPend => 0x008
  | .evtMask => 0x00C
  | .cmd => 0x010
  | .hcrc => 0x014
  | .txHdr => 0x018
  | .rxSel => 0x01C
  | .rxHdr => 0x020
  | .rxCrc => 0x024
  | .errInfo => 0x028
  | .errCrc => 0x02C
  | .cnt0 => 0x030
  | .cnt1 => 0x034
  | .cnt2 => 0x038
  | .cnt3 => 0x03C
  | .nextId => 0x040

/-- `WR reg, v`. -/
def asmWr (r : Reg) (v : Word) : List Stimulus := [.hostWrite r.offset v]

/-- `RD reg`. -/
def asmRd (r : Reg) : List Stimulus := [.hostRead r.offset]

/-- `WR TXBUF[i], b`. -/
def asmWrTxbuf (i : Nat) (b : Byte) : List Stimulus := [.hostWrite (BitVec.ofNat 16 (0x4000 + 4 * i)) (b.setWidth 32)]

/-- `RD RXWIN[i]`. -/
def asmRdRxwin (i : Nat) : List Stimulus := [.hostRead (BitVec.ofNat 16 (0x8000 + 4 * i))]

/-- `CMD op A8, A16`. -/
def asmCmd (op a8 : Byte) (a16 : Half) : List Stimulus := asmWr .cmd (commandWord op a8 a16)

/-- `RX b0 b1 ...`. -/
def asmRx (bs : List Byte) : List Stimulus := bs.map .rxByte

/-- `PULL n`. -/
def asmPull (n : Nat) : List Stimulus := List.replicate n .txPull

/-- `CRCBYTES b0 ... bk`: CRC_INIT, then one CRC_BYTE per byte. -/
def asmCrcBytes (bs : List Byte) : List Stimulus := asmCmd 0x01 0 0 ++ bs.flatMap (fun b => asmCmd 0x02 b 0)

/-- `LOADTX b0 ... bk` from TXBUF index `i`; the spec's form is index 0. -/
def asmLoadTxFrom : Nat → List Byte → List Stimulus
  | _, [] => []
  | i, b :: bs => asmWrTxbuf i b ++ asmLoadTxFrom (i + 1) bs

/-- `LOADTX b0 ... bk`. -/
def asmLoadTx (bs : List Byte) : List Stimulus := asmLoadTxFrom 0 bs

/-- `SEND t, id, len`. -/
def asmSend (t id : Byte) (len : Half) : List Stimulus := asmWr .txHdr (TxHdr.word ⟨t, id, len⟩) ++ asmCmd 0x10 0 0

/-- `SENDAUTO t, len`. -/
def asmSendAuto (t : Byte) (len : Half) : List Stimulus := asmWr .txHdr (TxHdr.word ⟨t, 0, len⟩) ++ asmCmd 0x10 1 0

end Sys2Proof.Machine
end

