-- ==== Sys2Proof/Safety.lean ====
section
/-! DEFINITION. What counts as a safe state: the relations between fields that the rules state of every state a run reaches
(10_state.md R34, R36 to R42, R54; 41_encoder_mux.md R183, R185); several steps and several events in a row; and the tables
of frame types and function codes that claims range over. -/

namespace Sys2Proof.Machine

/-- The constraints of 00_scope.md R8, and `txbuf_init` in canonical form. -/
abbrev Params.ok (p : Params) : Prop :=
  1 ≤ p.rxqDepth ∧ p.rxqDepth ≤ 255 ∧ 1 ≤ p.tokqDepth ∧ p.tokqDepth ≤ 255 ∧ p.txbufInit.wf

/-- The two buffers are in canonical form. -/
abbrev State.memOk (s : State) : Prop := s.txbuf.wf ∧ s.dbuf.wf

/-- A frame record is a valid frame (10_state.md R36; 42_decoder.md R220): its payload has the length it says and the CRC it
carries. -/
abbrev FrameRecord.ok (r : FrameRecord) : Prop := r.payload.length = r.len.toNat ∧ r.crc = crcOf r.payload

/-- The receive queues: capacity (R37), valid frames only, each in the channel of its type (43_demux_tokens.md R260). -/
abbrev State.rxqOk (s : State) : Prop :=
  ∀ c : Fin 7, s.rxq[c].length ≤ s.params.rxqDepth ∧ ∀ r ∈ s.rxq[c], r.ok ∧ channel r.type = c

/-- The token queue: capacity, and `reason` 0 in an ACK (R38). -/
abbrev State.tokqOk (s : State) : Prop :=
  s.tokq.length ≤ s.params.tokqDepth ∧ ∀ k ∈ s.tokq, k.kind = .ack → k.reason = 0

/-- How many payload bytes the decoder has, state by state (R33, R34, R54): none before the payload, fewer than the length
within it, all of them at the CRC. -/
abbrev State.didxOk (s : State) : Prop :=
  match s.dstate with
  | .huntSync1 | .huntSync2 => s.didx ≤ fmtLen s.dfmt
  | .readFormatHi | .readFormatLo | .readId => s.didx = 0
  | .readPayload => s.didx < fmtLen s.dfmt
  | .readCrcHi | .readCrcLo => s.didx = fmtLen s.dfmt
  | .emit => False

/-- The decoder: EMIT is never held (R33), the payload count fits the state, and DCRC is the CRC of the bytes received
(R34). -/
abbrev State.decoderOk (s : State) : Prop :=
  s.didxOk ∧ s.dcrc = crcOf (s.dbuf.slice s.didx.toNat)

/-- A staged frame's captured CRC is that of its payload in TXBUF (R183, R185). -/
abbrev State.stagedOk (s : State) : Prop :=
  s.txStaged = true → s.txSnap.crc = crcOf (s.txbuf.slice s.txSnap.len.toNat)

/-- The serialiser (R42, R54, R183): nothing held when idle; a frame in transmission is the staged frame's encoding or a
token's, with a byte still to send. -/
def State.serialiserOk (s : State) : Prop :=
  match s.txsrc with
  | .none => s.txframe = [] ∧ s.txpos = 0
  | .host => s.txStaged = true ∧ s.txpos.toNat < s.txframe.length ∧
      s.txframe = encodeFrame s.txSnap.type s.txSnap.id (s.txbuf.slice s.txSnap.len.toNat)
  | .token => s.txpos.toNat < s.txframe.length ∧ ∃ k id, s.txframe = tokenFrame k id

/-- A safe state: everything above. -/
def State.Inv (s : State) : Prop :=
  s.params.ok ∧ s.memOk ∧ s.rxqOk ∧ s.tokqOk ∧ s.decoderOk ∧ s.stagedOk ∧ s.serialiserOk

/-- A decoder that hunts for sync. -/
abbrev DState.hunting (d : DState) : Prop := d = .huntSync1 ∨ d = .huntSync2

/-- `n` steps, stopping at the first that gives no next state. -/
def steps : Nat → State → Result
  | 0, s => .next s
  | n + 1, s =>
    match step s with
    | .next t => steps n t
    | .fault r => .fault r
    | .refused r => .refused r

/-- External events performed one after another, stopping at the first that gives no next state. -/
def perform : List Stimulus → State → Result
  | [], s => .next s
  | e :: es, s =>
    match exec e.instr s with
    | .next t => perform es t
    | .fault r => .fault r
    | .refused r => .refused r

/-- The sixteen frame-type instructions with their type (30_encoding.md R107, R108) and channel (43_demux_tokens.md R260). -/
def frameRows : List ((BitVec 12 → Instr) × BitVec 4 × Fin 7) :=
  [(.frameUnassigned0, 0x0, 6), (.frameConfiguration, 0x1, 0), (.frameCommand, 0x2, 1), (.frameData, 0x3, 2)] ++
  [(.frameUnassigned4, 0x4, 6), (.frameUnassigned5, 0x5, 6), (.frameUnassigned6, 0x6, 6), (.frameUnassigned7, 0x7, 6)] ++
  [(.frameAck, 0x8, 3), (.frameNack, 0x9, 4), (.frameError, 0xA, 5), (.frameUnassignedB, 0xB, 6)] ++
  [(.frameUnassignedC, 0xC, 6), (.frameUnassignedD, 0xD, 6), (.frameUnassignedE, 0xE, 6), (.frameUnassignedF, 0xF, 6)]

/-- The seven function-code instructions with the frame type that carries them and their code (30_encoding.md R112). -/
def functionRows : List (Instr × BitVec 4 × Byte) :=
  [(.fnSetBaudRate, 0x1, 0x1), (.fnSetAckTimeout, 0x1, 0x2), (.fnTransmitToken, 0x1, 0x3)] ++
  [(.fnQueryFile, 0x2, 0x1), (.fnQueryFileCrc, 0x2, 0x2), (.fnReceiveFile, 0x2, 0x3), (.fnTransmitFile, 0x2, 0x4)]

/-! What R347 lists as refused. -/

/-- A misaligned or unmapped offset (20_memory.md R81, R84). -/
def badOffset (off : Half) : Prop :=
  off.extractLsb' 0 2 ≠ 0 ∨ (0x044 ≤ off.toNat ∧ off.toNat ≤ 0x3FFC) ∨ off.toNat = 0x7FFC ∨ 0xBFFC ≤ off.toNat

/-- A read-only offset (44_host_interface.md R303). -/
def readOnlyOffset (off : Half) : Prop :=
  off ∈ [0x004#16, 0x014, 0x020, 0x024, 0x028, 0x02C, 0x030, 0x034, 0x038, 0x03C] ∨
    (0x8000 ≤ off.toNat ∧ off.toNat ≤ 0xBFF8)

/-- An offset that is locked while a frame is staged (44_host_interface.md R305, R306). -/
def lockedOffset (off : Half) : Prop :=
  off = 0x018 ∨ (0x4000 ≤ off.toNat ∧ off.toNat ≤ 0x7FF8)

/-- A command that is refused in a state (41_encoder_mux.md R184, R186; 43_demux_tokens.md R263). -/
def commandRefused (i : Instr) (s : State) : Prop :=
  match i with
  | .txSend _ => s.txStaged = true
  | .txCancel => s.txStaged = false ∨ s.txsrc = .host
  | .rxPop c => 6 < c.toNat ∨ ∃ ch : Fin 7, c.toNat = ch.val ∧ s.rxq[ch] = []
  | _ => False

/-- The refused accesses and commands of 60_exceptions.md R347. -/
def refusedIn (i : Instr) (s : State) : Prop :=
  match i with
  | .hostRead off => badOffset off
  | .hostWrite off v =>
    badOffset off ∨ readOnlyOffset off ∨ (lockedOffset off ∧ s.txStaged = true) ∨
      (off = 0x010 ∧
        match decodeCommand v with
        | .ok c => commandRefused c s
        | .error _ => True)
  | i => commandRefused i s

/-- Writes of the payload bytes `p` into a buffer from index `i` on. -/
def Mem.writeAll (m : Mem) : Nat → List Byte → Mem
  | _, [] => m
  | i, b :: p => Mem.writeAll (m.write i b) (i + 1) p

end Sys2Proof.Machine
end

