-- ==== Sys2Proof/Certificates/Slice0/Obligations.lean ====
section
/-! DEFINITION. The statements for the provers. A state or a byte that HOST_READ or TX_PULL "returns" is the entry it appends
to `replies` (log 2); the events still to come are `inbox` (log 1). -/

open Sys2Proof Sys2Proof.Machine

/-! CRC engine (40_crc.md). -/

/-- R160: the printed table is the one R151 constructs. -/
def Obligations.CrcTableIsPrintedTable : Prop :=
  ∀ b : Byte, Config.crcTablePrinted[b.toNat]? = some (crcTable b)

/-- R154: the table update is eight shift-XOR steps on the whole register. -/
def Obligations.CrcUpdateIsBitwise : Prop :=
  ∀ (c : Half) (b : Byte), crcUpdate c b = crcUpdateBitwise c b

/-- R158: zero bytes, the zero residue, and folding over a concatenation. -/
def Obligations.CrcOfProperties : Prop :=
  (∀ k : Nat, crcOf (List.replicate k 0) = 0x0000) ∧
  (∀ (k : Nat) (p : List Byte), crcOf (List.replicate k 0 ++ p) = crcOf p) ∧
  (∀ p : List Byte, crcOf (p ++ [hiByte (crcOf p), loByte (crcOf p)]) = 0x0000) ∧
  ∀ p q : List Byte, crcOf (p ++ q) = crcFrom (crcOf p) q

/-- R155, R156, R152: the two commands of the host CRC engine, their encodings and whole effects. -/
def Obligations.CrcCommandsUpdateHcrc : Prop :=
  (∀ v : Word, v.extractLsb' 0 8 = 0x01 →
    decodeCommand v = .ok .crcInit ∧ ∀ s : State, exec (.hostWrite 0x010 v) s = exec .crcInit s) ∧
  (∀ v : Word, v.extractLsb' 0 8 = 0x02 →
    decodeCommand v = .ok (.crcByte (v.extractLsb' 8 8)) ∧
      ∀ s : State, exec (.hostWrite 0x010 v) s = exec (.crcByte (v.extractLsb' 8 8)) s) ∧
  (∀ s : State, exec .crcInit s = .next { s with hcrc := 0x0000 }) ∧
  ∀ (s : State) (b : Byte),
    exec (.crcByte b) s =
      .next { s with hcrc := (s.hcrc <<< 8) ^^^ crcTable (BitVec.truncate 8 (s.hcrc >>> 8) ^^^ b) }

/-- R32, R161: only the two CRC commands (under either name) and a reset change HCRC, and only they and a read of HCRC see it. -/
def Obligations.HcrcIsolatedFromFrames : Prop :=
  ∀ (i : Instr) (s t : State) (x : Half),
    i ≠ .crcInit → (∀ b, i ≠ .crcByte b) → i ≠ .reset →
    (∀ off v, i = .hostWrite off v → off = 0x010 → v.extractLsb' 0 8 ≠ 0x01 ∧ v.extractLsb' 0 8 ≠ 0x02) →
    exec i s = .next t →
    t.hcrc = s.hcrc ∧ (i ≠ .hostRead 0x014 → exec i { s with hcrc := x } = .next { t with hcrc := x })

/-! Host commands (41_encoder_mux.md, 42_decoder.md, 43_demux_tokens.md, 44_host_interface.md). -/

/-- R310, R311: NOP changes nothing, CNT_CLEAR only the eight counters. -/
def Obligations.NopAndCntClear : Prop :=
  (∀ v : Word, v.extractLsb' 0 8 = 0x00 →
    decodeCommand v = .ok .nop ∧ ∀ s : State, exec (.hostWrite 0x010 v) s = exec .nop s) ∧
  (∀ v : Word, v.extractLsb' 0 8 = 0x40 →
    decodeCommand v = .ok .cntClear ∧ ∀ s : State, exec (.hostWrite 0x010 v) s = exec .cntClear s) ∧
  (∀ s : State, exec .nop s = .next s) ∧
  ∀ s : State, exec .cntClear s = .next { s with cnt := ⟨0, 0, 0, 0, 0, 0, 0, 0⟩ }

/-- R184, R345: TX_SEND refused, in error, or staging the frame. -/
def Obligations.TxSendStagesFrame : Prop :=
  (∀ v : Word, v.extractLsb' 0 8 = 0x10 →
    decodeCommand v = .ok (.txSend (v.getLsbD 8)) ∧
      ∀ s : State, exec (.hostWrite 0x010 v) s = exec (.txSend (v.getLsbD 8)) s) ∧
  ∀ (s : State) (a : Bool),
    (s.txStaged = true → exec (.txSend a) s = .next { s with evtPend := s.evtPend ||| 0x80 }) ∧
    (s.txStaged = false → (0xF < s.txHdr.type.toNat ∨ 4095 < s.txHdr.len.toNat) →
      exec (.txSend a) s =
        .next { s with
          evtPend := s.evtPend ||| 0x20
          cnt := { s.cnt with encerr := satInc s.cnt.encerr } }) ∧
    (s.txStaged = false → s.txHdr.type.toNat ≤ 0xF → s.txHdr.len.toNat ≤ 4095 →
      exec (.txSend a) s =
        .next { s with
          txStaged := true
          txSnap := {
            type := s.txHdr.type.extractLsb' 0 4
            id := s.txHdr.id
            len := s.txHdr.len.extractLsb' 0 12
            crc := crcOf (s.txbuf.slice s.txHdr.len.toNat)
            autoid := a } })

/-- R186: TX_CANCEL drops a staged frame that has not started, and is rejected otherwise. -/
def Obligations.TxCancelUnstages : Prop :=
  (∀ v : Word, v.extractLsb' 0 8 = 0x11 →
    decodeCommand v = .ok .txCancel ∧ ∀ s : State, exec (.hostWrite 0x010 v) s = exec .txCancel s) ∧
  ∀ s : State,
    (s.txStaged = true → s.txsrc ≠ .host → exec .txCancel s = .next { s with txStaged := false }) ∧
    ((s.txStaged = false ∨ s.txsrc = .host) → exec .txCancel s = .next { s with evtPend := s.evtPend ||| 0x80 })

/-- R263: RX_POP removes the head of the channel it names, or is rejected. -/
def Obligations.RxPopRemovesHead : Prop :=
  (∀ v : Word, v.extractLsb' 0 8 = 0x20 →
    decodeCommand v = .ok (.rxPop (v.extractLsb' 8 8)) ∧
      ∀ s : State, exec (.hostWrite 0x010 v) s = exec (.rxPop (v.extractLsb' 8 8)) s) ∧
  ∀ (s : State) (c : Byte),
    (6 < c.toNat → exec (.rxPop c) s = .next { s with evtPend := s.evtPend ||| 0x80 }) ∧
    ∀ ch : Fin 7, c.toNat = ch.val →
      (s.rxq[ch] = [] → exec (.rxPop c) s = .next { s with evtPend := s.evtPend ||| 0x80 }) ∧
      ∀ h rest, s.rxq[ch] = h :: rest → exec (.rxPop c) s = .next { s with rxq := s.rxq.set ch rest }

/-- R264, R277: the clearing commands empty their queues and change nothing else. -/
def Obligations.QueueClearCommands : Prop :=
  (∀ v : Word, v.extractLsb' 0 8 = 0x21 →
    decodeCommand v = .ok .rxqClear ∧ ∀ s : State, exec (.hostWrite 0x010 v) s = exec .rxqClear s) ∧
  (∀ v : Word, v.extractLsb' 0 8 = 0x32 →
    decodeCommand v = .ok .tokClear ∧ ∀ s : State, exec (.hostWrite 0x010 v) s = exec .tokClear s) ∧
  (∀ s : State, ∃ q, exec .rxqClear s = .next { s with rxq := q } ∧ ∀ c : Fin 7, q[c] = []) ∧
  ∀ s : State, exec .tokClear s = .next { s with tokq := [] }

/-- R233: DEC_ABORT discards a partial frame with DECODE_ERR, and is silent while hunting; EMIT is never held (R33). -/
def Obligations.DecAbortReturnsToHunt : Prop :=
  (∀ v : Word, v.extractLsb' 0 8 = 0x22 →
    decodeCommand v = .ok .decAbort ∧ ∀ s : State, exec (.hostWrite 0x010 v) s = exec .decAbort s) ∧
  ∀ s : State,
    (s.dstate ∈ [.readFormatHi, .readFormatLo, .readId, .readPayload, .readCrcHi, .readCrcLo] →
      exec .decAbort s =
        .next { s with
          dstate := .huntSync1
          evtPend := s.evtPend ||| 0x04
          cnt := { s.cnt with decerr := satInc s.cnt.decerr } }) ∧
    (s.dstate ∈ [.huntSync1, .huntSync2] → exec .decAbort s = .next { s with dstate := .huntSync1 })

/-- R270, R275, R276: TOK_ACK and TOK_NACK queue a token, or drop it with TOK_OVF when TOKQ is full. -/
def Obligations.TokenCommandsQueueToken : Prop :=
  (∀ v : Word, v.extractLsb' 0 8 = 0x30 →
    decodeCommand v = .ok (.tokAck (v.extractLsb' 8 8)) ∧
      ∀ s : State, exec (.hostWrite 0x010 v) s = exec (.tokAck (v.extractLsb' 8 8)) s) ∧
  (∀ v : Word, v.extractLsb' 0 8 = 0x31 →
    decodeCommand v = .ok (.tokNack (v.extractLsb' 8 8) (v.extractLsb' 16 8)) ∧
      ∀ s : State, exec (.hostWrite 0x010 v) s = exec (.tokNack (v.extractLsb' 8 8) (v.extractLsb' 16 8)) s) ∧
  ∀ (s : State) (e r : Byte),
    (s.tokq.length < s.params.tokqDepth →
      exec (.tokAck e) s = .next { s with tokq := s.tokq ++ [⟨.ack, e, 0x00⟩] } ∧
      exec (.tokNack e r) s = .next { s with tokq := s.tokq ++ [⟨.nack, e, r⟩] }) ∧
    (s.params.tokqDepth ≤ s.tokq.length →
      exec (.tokAck e) s =
        .next { s with evtPend := s.evtPend ||| 0x10, cnt := { s.cnt with tokdrop := satInc s.cnt.tokdrop } } ∧
      exec (.tokNack e r) s =
        .next { s with evtPend := s.evtPend ||| 0x10, cnt := { s.cnt with tokdrop := satInc s.cnt.tokdrop } })

/-! Encoder and multiplexer (41_encoder_mux.md). -/

/-- R182, R187 (with R100, R102): the bytes of a frame and of a token. -/
def Obligations.EncodedFrameLayout : Prop :=
  (∀ (t : BitVec 4) (id : Byte) (p : List Byte), p.length ≤ 4095 →
    (encodeFrame t id p).length = 7 + p.length ∧
    ∃ fw : Half, fw = (t.setWidth 16 <<< 12) ||| BitVec.ofNat 16 p.length ∧
      encodeFrame t id p =
        [0xEB, 0x90, BitVec.truncate 8 (fw >>> 8), BitVec.truncate 8 fw, id] ++ p ++
          [BitVec.truncate 8 (crcOf p >>> 8), BitVec.truncate 8 (crcOf p)]) ∧
  (∀ (e r id : Byte), tokenFrame ⟨.ack, e, r⟩ id = encodeFrame 0x8 id [e]) ∧
  ∀ (e r id : Byte), tokenFrame ⟨.nack, e, r⟩ id = encodeFrame 0x9 id [e, r]

/-- R188, R189, R191, R193: what a TX_PULL with no frame in transmission starts: the token at the head of TOKQ, else the
staged frame, else nothing; its first byte is 0xEB. -/
def Obligations.TxPullSelectsFrame : Prop :=
  ∀ s : State, s.txsrc = .none →
    (s.tokq = [] → s.txStaged = false → exec .txPull s = .next { s with replies := s.replies ++ [.idle] }) ∧
    (∀ k rest, s.tokq = k :: rest →
      exec .txPull s =
        .next { s with
          tokq := rest, nextId := s.nextId + 1
          txsrc := .token, txframe := tokenFrame k s.nextId, txpos := 1
          replies := s.replies ++ [.byte 0xEB] }) ∧
    (s.tokq = [] → s.txStaged = true → s.txSnap.autoid = false →
      exec .txPull s =
        .next { s with
          txsrc := .host, txpos := 1
          txframe := frameBytes (formatWord s.txSnap.type s.txSnap.len) s.txSnap.id
            (s.txbuf.slice s.txSnap.len.toNat) s.txSnap.crc
          replies := s.replies ++ [.byte 0xEB] }) ∧
    (s.tokq = [] → s.txStaged = true → s.txSnap.autoid = true →
      exec .txPull s =
        .next { s with
          txsrc := .host, txpos := 1, nextId := s.nextId + 1
          txSnap := { s.txSnap with id := s.nextId }
          txHdr := { s.txHdr with id := s.nextId }
          txframe := frameBytes (formatWord s.txSnap.type s.txSnap.len) s.nextId
            (s.txbuf.slice s.txSnap.len.toNat) s.txSnap.crc
          replies := s.replies ++ [.byte 0xEB] })

/-- R190: a TX_PULL within a frame sends its next byte; the last byte ends the frame, with TX_DONE for a host frame. -/
def Obligations.TxPullSendsNextByte : Prop :=
  ∀ (s : State) (b : Byte), s.txsrc ≠ .none → s.txframe[s.txpos.toNat]? = some b →
    (s.txpos.toNat + 1 < s.txframe.length →
      exec .txPull s = .next { s with txpos := s.txpos + 1, replies := s.replies ++ [.byte b] }) ∧
    (s.txpos.toNat + 1 = s.txframe.length → s.txsrc = .host →
      exec .txPull s =
        .next { s with
          txStaged := false
          evtPend := s.evtPend ||| 0x40
          cnt := { s.cnt with txok := satInc s.cnt.txok }
          txsrc := .none, txframe := [], txpos := 0
          replies := s.replies ++ [.byte b] }) ∧
    (s.txpos.toNat + 1 = s.txframe.length → s.txsrc = .token →
      exec .txPull s =
        .next { s with
          cnt := { s.cnt with toktx := satInc s.cnt.toktx }
          txsrc := .none, txframe := [], txpos := 0
          replies := s.replies ++ [.byte b] })

/-- R183, R190, R191, R192: with nothing in transmission and no token, pulling a staged frame's 7 + LEN bytes returns exactly
its encoding and leaves the transmitter idle; with an automatic id the frame is sent with NEXT_ID, which advances and is written
back to TX_SNAP.id and TX_HDR.ID. -/
def Obligations.PullsSendStagedFrame : Prop :=
  ∀ s : State, s.stagedOk → s.txsrc = .none → s.tokq = [] → s.txStaged = true →
    (s.txSnap.autoid = false →
      perform (asmPull (7 + s.txSnap.len.toNat)) s =
        .next { s with
          txStaged := false
          evtPend := s.evtPend ||| 0x40
          cnt := { s.cnt with txok := satInc s.cnt.txok }
          txframe := [], txpos := 0
          replies := s.replies ++
            (encodeFrame s.txSnap.type s.txSnap.id (s.txbuf.slice s.txSnap.len.toNat)).map .byte }) ∧
    (s.txSnap.autoid = true →
      perform (asmPull (7 + s.txSnap.len.toNat)) s =
        .next { s with
          txStaged := false
          nextId := s.nextId + 1
          txSnap := { s.txSnap with id := s.nextId }
          txHdr := { s.txHdr with id := s.nextId }
          evtPend := s.evtPend ||| 0x40
          cnt := { s.cnt with txok := satInc s.cnt.txok }
          txframe := [], txpos := 0
          replies := s.replies ++
            (encodeFrame s.txSnap.type s.nextId (s.txbuf.slice s.txSnap.len.toNat)).map .byte })

/-- R189, R271, R272: the token at the head of TOKQ is sent whole, before the staged frame, with NEXT_ID as its id. -/
def Obligations.PullsSendToken : Prop :=
  ∀ (s : State) (k : TokenRecord) (rest : List TokenRecord), s.txsrc = .none → s.tokq = k :: rest →
    perform (asmPull (tokenFrame k s.nextId).length) s =
      .next { s with
        tokq := rest, nextId := s.nextId + 1
        cnt := { s.cnt with toktx := satInc s.cnt.toktx }
        txframe := [], txpos := 0
        replies := s.replies ++ (tokenFrame k s.nextId).map .byte }

/-- R185, R93, R305, R191: as long as a frame stays staged, TXBUF, TX_HDR and what TX_SEND captured do not change, but for the
id in TX_HDR and TX_SNAP, which becomes NEXT_ID as a frame with an automatic id starts. -/
def Obligations.StagedFrameIsLocked : Prop :=
  ∀ (i : Instr) (s t : State), s.txStaged = true → exec i s = .next t → t.txStaged = true →
    t.txbuf = s.txbuf ∧ t.txHdr.type = s.txHdr.type ∧ t.txHdr.len = s.txHdr.len ∧
    t.txSnap.type = s.txSnap.type ∧ t.txSnap.len = s.txSnap.len ∧ t.txSnap.crc = s.txSnap.crc ∧
    t.txSnap.autoid = s.txSnap.autoid ∧
    ((t.txSnap.id = s.txSnap.id ∧ t.txHdr.id = s.txHdr.id) ∨
      (s.txSnap.autoid = true ∧ i = .txPull ∧ s.txsrc = .none ∧ t.txsrc = .host ∧ t.txSnap.id = s.nextId ∧
        t.txHdr.id = s.nextId))

/-- R189, R39: NEXT_ID advances by one when a TX_PULL starts a token or a staged frame with an automatic id, and every other
instruction but a host write of NEXT_ID and reset leaves it. -/
def Obligations.NextIdAdvancesOnlyAtStart : Prop :=
  (∀ s : State, s.txsrc = .none → (s.tokq ≠ [] ∨ (s.txStaged = true ∧ s.txSnap.autoid = true)) →
    ∃ t, exec .txPull s = .next t ∧ t.nextId = s.nextId + 1) ∧
  ∀ (i : Instr) (s t : State), i ≠ .reset → (∀ v, i ≠ .hostWrite 0x040 v) →
    ¬ (i = .txPull ∧ s.txsrc = .none ∧ (s.tokq ≠ [] ∨ (s.txStaged = true ∧ s.txSnap.autoid = true))) →
    exec i s = .next t → t.nextId = s.nextId

/-! Decoder (42_decoder.md). -/

/-- R223 to R226: the bytes before the payload. -/
def Obligations.RxByteBeforePayload : Prop :=
  ∀ (s : State) (b : Byte),
    (s.dstate = .huntSync1 → b = 0xEB → exec (.rxByte b) s = .next { s with dstate := .huntSync2 }) ∧
    (s.dstate = .huntSync1 → b ≠ 0xEB → exec (.rxByte b) s = .next s) ∧
    (s.dstate = .huntSync2 → b = 0x90 →
      exec (.rxByte b) s =
        .next { s with dfmt := 0, did := 0, didx := 0, dcrc := 0x0000, dcrcx := 0, dstate := .readFormatHi }) ∧
    (s.dstate = .huntSync2 → b = 0xEB → exec (.rxByte b) s = .next s) ∧
    (s.dstate = .huntSync2 → b ≠ 0x90 → b ≠ 0xEB → exec (.rxByte b) s = .next { s with dstate := .huntSync1 }) ∧
    (s.dstate = .readFormatHi →
      exec (.rxByte b) s = .next { s with dfmt := b ++ s.dfmt.extractLsb' 0 8, dstate := .readFormatLo }) ∧
    (s.dstate = .readFormatLo →
      exec (.rxByte b) s = .next { s with dfmt := s.dfmt.extractLsb' 8 8 ++ b, dstate := .readId }) ∧
    (s.dstate = .readId → s.dfmt.extractLsb' 0 12 = 0 →
      exec (.rxByte b) s = .next { s with did := b, dstate := .readCrcHi }) ∧
    (s.dstate = .readId → s.dfmt.extractLsb' 0 12 ≠ 0 →
      exec (.rxByte b) s = .next { s with did := b, dstate := .readPayload })

/-- R227, R228: a payload byte is buffered and folded into DCRC, the CRC high byte is kept; every other byte of DBUF stays. -/
def Obligations.RxBytePayloadAndCrcHigh : Prop :=
  ∀ (s : State) (b : Byte),
    (s.dstate = .readPayload → s.dbuf.wf → s.didx.toNat < 4095 →
      ∃ t, exec (.rxByte b) s = .next t ∧
        t = { s with
          dbuf := t.dbuf
          dcrc := crcUpdate s.dcrc b
          didx := s.didx + 1
          dstate := if s.didx + 1 = s.dfmt.extractLsb' 0 12 then .readCrcHi else .readPayload } ∧
        ∀ j, t.dbuf.read j = if j = s.didx.toNat then b else s.dbuf.read j) ∧
    (s.dstate = .readCrcHi →
      exec (.rxByte b) s = .next { s with dcrcx := b ++ s.dcrcx.extractLsb' 0 8, dstate := .readCrcLo })

/-- R229, R230: the last CRC byte completes the frame, and EMIT of its format word runs in the same event (the frame-type
instruction is the model's name for that EMIT, log 10). -/
def Obligations.RxByteCrcLowEmits : Prop :=
  ∀ (s : State) (b : Byte), s.dstate = .readCrcLo →
    exec (.rxByte b) s =
      exec (decodeFormat s.dfmt) { s with dcrcx := s.dcrcx.extractLsb' 8 8 ++ b, dstate := .emit }

/-- R229 to R231, R261, R262, R266, R267: the last CRC byte delivers the frame, drops it as overflow or reports the mismatch,
by the decoder's registers; an automatic token is queued as TOK_ACK and TOK_NACK queue theirs (R270). -/
def Obligations.LastCrcByteEndsFrame : Prop :=
  ∀ (s : State) (b : Byte), s.dstate = .readCrcLo →
    ∀ (x : Half) (t : BitVec 4) (len : BitVec 12) (c : Fin 7),
    x = s.dcrcx.extractLsb' 8 8 ++ b → t = s.dfmt.extractLsb' 12 4 → len = s.dfmt.extractLsb' 0 12 → c = channel t →
    (s.dcrc = x → s.rxq[c].length < s.params.rxqDepth →
      ∃ d : State,
        d = { s with
          dcrcx := x, dstate := .huntSync1
          rxq := s.rxq.set c (s.rxq[c] ++ [⟨t, s.did, len, s.dbuf.slice len.toNat, x⟩])
          evtPend := s.evtPend ||| 0x01
          cnt := { s.cnt with rxok := satInc s.cnt.rxok } } ∧
        (((t = 0x2 ∨ t = 0x3) ∧ s.ctrl.getLsbD 0 = true) → exec (.rxByte b) s = exec (.tokAck s.did) d) ∧
        (¬ ((t = 0x2 ∨ t = 0x3) ∧ s.ctrl.getLsbD 0 = true) → exec (.rxByte b) s = .next d)) ∧
    (s.dcrc = x → s.params.rxqDepth ≤ s.rxq[c].length →
      exec (.rxByte b) s =
        .next { s with
          dcrcx := x, dstate := .huntSync1
          evtPend := s.evtPend ||| 0x08
          cnt := { s.cnt with rxovf := satInc s.cnt.rxovf } }) ∧
    (s.dcrc ≠ x →
      ∃ d : State,
        d = { s with
          dcrcx := x, dstate := .huntSync1
          errInfo := (len.setWidth 32 <<< 16) ||| (s.did.setWidth 32 <<< 8) ||| t.setWidth 32
          errCrc := (s.dcrc.setWidth 32 <<< 16) ||| x.setWidth 32
          evtPend := s.evtPend ||| 0x02
          cnt := { s.cnt with integ := satInc s.cnt.integ } } ∧
        (s.ctrl.getLsbD 1 = true → exec (.rxByte b) s = exec (.tokNack s.did 0x01) d) ∧
        (s.ctrl.getLsbD 1 = false → exec (.rxByte b) s = .next d))

/-- R230, R261, R268: EMIT of a valid frame whose channel has room and that is not acknowledged: the sixteen types. -/
def Obligations.FrameDeliveredWithoutToken : Prop :=
  ∀ row ∈ frameRows, ∀ (len : BitVec 12) (s : State),
    s.dcrc = s.dcrcx → s.rxq[row.2.2].length < s.params.rxqDepth →
    ((row.2.1 ≠ 0x2 ∧ row.2.1 ≠ 0x3) ∨ s.ctrl.getLsbD 0 = false) →
    exec (row.1 len) s =
      .next { s with
        dstate := .huntSync1
        rxq := s.rxq.set row.2.2 (s.rxq[row.2.2] ++ [⟨row.2.1, s.did, len, s.dbuf.slice len.toNat, s.dcrcx⟩])
        evtPend := s.evtPend ||| 0x01
        cnt := { s.cnt with rxok := satInc s.cnt.rxok } }

/-- R261, R266, R270: EMIT of a valid COMMAND or DATA frame with AUTO_ACK_EN = 1 also queues the ACK, or drops it with TOK_OVF
(R353: both events are set). -/
def Obligations.FrameDeliveredWithAck : Prop :=
  ∀ row ∈ frameRows, (row.2.1 = 0x2 ∨ row.2.1 = 0x3) → ∀ (len : BitVec 12) (s : State),
    s.dcrc = s.dcrcx → s.rxq[row.2.2].length < s.params.rxqDepth → s.ctrl.getLsbD 0 = true →
    (s.tokq.length < s.params.tokqDepth →
      exec (row.1 len) s =
        .next { s with
          dstate := .huntSync1
          rxq := s.rxq.set row.2.2 (s.rxq[row.2.2] ++ [⟨row.2.1, s.did, len, s.dbuf.slice len.toNat, s.dcrcx⟩])
          evtPend := s.evtPend ||| 0x01
          cnt := { s.cnt with rxok := satInc s.cnt.rxok }
          tokq := s.tokq ++ [⟨.ack, s.did, 0x00⟩] }) ∧
    (s.params.tokqDepth ≤ s.tokq.length →
      exec (row.1 len) s =
        .next { s with
          dstate := .huntSync1
          rxq := s.rxq.set row.2.2 (s.rxq[row.2.2] ++ [⟨row.2.1, s.did, len, s.dbuf.slice len.toNat, s.dcrcx⟩])
          evtPend := s.evtPend ||| 0x01 ||| 0x10
          cnt := { s.cnt with rxok := satInc s.cnt.rxok, tokdrop := satInc s.cnt.tokdrop } })

/-- R261, R262: EMIT of a valid frame whose channel is full drops it with RX_OVF and no ACK. -/
def Obligations.FrameDroppedWhenChannelFull : Prop :=
  ∀ row ∈ frameRows, ∀ (len : BitVec 12) (s : State),
    s.dcrc = s.dcrcx → s.params.rxqDepth ≤ s.rxq[row.2.2].length →
    exec (row.1 len) s =
      .next { s with
        dstate := .huntSync1
        evtPend := s.evtPend ||| 0x08
        cnt := { s.cnt with rxovf := satInc s.cnt.rxovf } }

/-- R231, R267, R50: EMIT of a corrupted frame records it, raises INTEGRITY_ERR and queues the NACK when AUTO_NACK_EN = 1. -/
def Obligations.FrameCorruptedReported : Prop :=
  ∀ row ∈ frameRows, ∀ (len : BitVec 12) (s : State), s.dcrc ≠ s.dcrcx →
    ∃ info crcs : Word,
      info = (len.setWidth 32 <<< 16) ||| (s.did.setWidth 32 <<< 8) ||| row.2.1.setWidth 32 ∧
      crcs = (s.dcrc.setWidth 32 <<< 16) ||| s.dcrcx.setWidth 32 ∧
      (s.ctrl.getLsbD 1 = false →
        exec (row.1 len) s =
          .next { s with
            dstate := .huntSync1, errInfo := info, errCrc := crcs
            evtPend := s.evtPend ||| 0x02
            cnt := { s.cnt with integ := satInc s.cnt.integ } }) ∧
      (s.ctrl.getLsbD 1 = true → s.tokq.length < s.params.tokqDepth →
        exec (row.1 len) s =
          .next { s with
            dstate := .huntSync1, errInfo := info, errCrc := crcs
            evtPend := s.evtPend ||| 0x02
            cnt := { s.cnt with integ := satInc s.cnt.integ }
            tokq := s.tokq ++ [⟨.nack, s.did, 0x01⟩] }) ∧
      (s.ctrl.getLsbD 1 = true → s.params.tokqDepth ≤ s.tokq.length →
        exec (row.1 len) s =
          .next { s with
            dstate := .huntSync1, errInfo := info, errCrc := crcs
            evtPend := s.evtPend ||| 0x02 ||| 0x10
            cnt := { s.cnt with integ := satInc s.cnt.integ, tokdrop := satInc s.cnt.tokdrop } })

/-- R260: the channel of each of the sixteen types, in order. -/
def Obligations.ChannelOfType : Prop :=
  (List.range 16).map (fun t => channel (BitVec.ofNat 4 t)) = [6, 0, 1, 2, 6, 6, 6, 6, 3, 4, 5, 6, 6, 6, 6, 6]

/-- R112: the block does not decode a function byte: it is an RX byte like any other (log 11), and as payload byte 0 it is
buffered and folded into DCRC. -/
def Obligations.FunctionByteIsOpaque : Prop :=
  ∀ row ∈ functionRows,
    (∀ s : State, exec row.1 s = exec (.rxByte row.2.2) s) ∧
    ∀ s : State, s.dstate = .readPayload → s.didx = 0 →
      exec row.1 s =
        .next { s with
          dbuf := s.dbuf.write 0 row.2.2
          dcrc := crcUpdate s.dcrc row.2.2
          didx := 1
          dstate := if s.dfmt.extractLsb' 0 12 = 1 then .readCrcHi else .readPayload }

/-- R225 to R229, R234, R238: from the 0x90 of a sync, exactly data_length + 5 bytes, whatever they are, lead to EMIT of their
format word with the id, the payload and the CRC they carry. -/
def Obligations.FrameBytesLeadToEmit : Prop :=
  ∀ (s : State) (fw : Half) (id : Byte) (p : List Byte) (c : Half),
    s.dstate = .readFormatHi → s.didx = 0 → s.dcrc = 0x0000 → p.length = (fmtLen fw).toNat →
    perform (asmRx ([hiByte fw, loByte fw, id] ++ p ++ [hiByte c, loByte c])) s =
      exec (decodeFormat fw)
        { s with
          dfmt := fw, did := id, didx := fmtLen fw
          dbuf := s.dbuf.writeAll 0 p
          dcrc := crcOf p, dcrcx := c, dstate := .emit }

/-- R197: a hunting decoder that receives `encode_frame(t, id, p)` ends in HUNT_SYNC_1 with exactly that record delivered when
its channel has room, and with the frame dropped as overflow when it has none; ERR_INFO and ERR_CRC are unchanged. -/
def Obligations.EncodedFrameIsReceived : Prop :=
  ∀ (s : State) (t : BitVec 4) (id : Byte) (p : List Byte),
    s.dbuf.wf → s.dstate.hunting → p.length ≤ 4095 →
    ∃ u, perform (asmRx (encodeFrame t id p)) s = .next u ∧ u.dstate = .huntSync1 ∧
      u.errInfo = s.errInfo ∧ u.errCrc = s.errCrc ∧ u.cnt.integ = s.cnt.integ ∧ u.cnt.decerr = s.cnt.decerr ∧
      (s.rxq[channel t].length < s.params.rxqDepth →
        u.rxq = s.rxq.set (channel t) (s.rxq[channel t] ++ [⟨t, id, BitVec.ofNat 12 p.length, p, crcOf p⟩]) ∧
        u.evtPend.getLsbD 0 = true ∧ u.cnt.rxok = satInc s.cnt.rxok ∧ u.cnt.rxovf = s.cnt.rxovf) ∧
      (s.params.rxqDepth ≤ s.rxq[channel t].length →
        u.rxq = s.rxq ∧ u.tokq = s.tokq ∧ u.evtPend.getLsbD 3 = true ∧ u.cnt.rxok = s.cnt.rxok ∧
        u.cnt.rxovf = satInc s.cnt.rxovf)

/-- R235: noise without the pair EB 90 around an encoded frame changes nothing of the outcome, which is the frame's delivery
when its channel has room, and leaves the decoder hunting. -/
def Obligations.ResyncThroughNoise : Prop :=
  ∀ (s : State) (t : BitVec 4) (id : Byte) (p n1 n2 : List Byte),
    s.dbuf.wf → s.dstate = .huntSync1 → p.length ≤ 4095 →
    ¬ [0xEB, 0x90] <:+: n1 → ¬ [0xEB, 0x90] <:+: n2 →
    ∃ u, perform (asmRx (encodeFrame t id p)) s = .next u ∧
      u.errInfo = s.errInfo ∧ u.errCrc = s.errCrc ∧ u.cnt.integ = s.cnt.integ ∧ u.cnt.decerr = s.cnt.decerr ∧
      (s.rxq[channel t].length < s.params.rxqDepth →
        u.rxq = s.rxq.set (channel t) (s.rxq[channel t] ++ [⟨t, id, BitVec.ofNat 12 p.length, p, crcOf p⟩]) ∧
        u.cnt.rxok = satInc s.cnt.rxok ∧ u.cnt.rxovf = s.cnt.rxovf) ∧
      perform (asmRx (n1 ++ encodeFrame t id p ++ n2)) s =
        .next { u with dstate := if n2.getLast? = some 0xEB then .huntSync2 else .huntSync1 }

/-- R159: flipping any one bit of the payload or the CRC of an encoded frame makes a hunting decoder report exactly one
integrity error and deliver nothing. -/
def Obligations.SingleBitFlipRejected : Prop :=
  ∀ (s : State) (t : BitVec 4) (id : Byte) (p : List Byte) (i j : Nat),
    s.dstate.hunting → p.length ≤ 4095 → i < p.length + 2 → j < 8 →
    ∃ u, perform (asmRx ((encodeFrame t id p).set (5 + i) (((encodeFrame t id p).getD (5 + i) 0) ^^^ (1#8 <<< j)))) s =
        .next u ∧
      u.rxq = s.rxq ∧ u.dstate = .huntSync1 ∧ u.evtPend.getLsbD 1 = true ∧
      u.cnt.integ = satInc s.cnt.integ ∧ u.cnt.rxok = s.cnt.rxok ∧ u.cnt.rxovf = s.cnt.rxovf

/-- R35: the bytes of DBUF past DIDX are never observable: two states that differ only there take the same step, up to such
bytes. -/
def Obligations.StaleDbufIsUnobservable : Prop :=
  ∀ (s t : State) (d : Mem),
    s.decoderOk → s.dbuf.wf → d.wf → d.slice s.didx.toNat = s.dbuf.slice s.didx.toNat → step s = .next t →
    ∃ d' : Mem, d'.wf ∧ step { s with dbuf := d } = .next { t with dbuf := d' } ∧
      d'.slice t.didx.toNat = t.dbuf.slice t.didx.toNat

/-! Host port (44_host_interface.md, 20_memory.md). -/

/-- R301: the value of every stored register at its offset; the read changes nothing (R89). -/
def Obligations.HostReadReturnsRegister : Prop :=
  ∀ s : State,
    exec (.hostRead 0x000) s = .next { s with replies := s.replies ++ [.word (s.ctrl.setWidth 32)] } ∧
    exec (.hostRead 0x008) s = .next { s with replies := s.replies ++ [.word (s.evtPend.setWidth 32)] } ∧
    exec (.hostRead 0x00C) s = .next { s with replies := s.replies ++ [.word (s.evtMask.setWidth 32)] } ∧
    exec (.hostRead 0x010) s = .next { s with replies := s.replies ++ [.word 0x00000000] } ∧
    exec (.hostRead 0x014) s = .next { s with replies := s.replies ++ [.word (s.hcrc.setWidth 32)] } ∧
    exec (.hostRead 0x018) s =
      .next { s with replies := s.replies ++
        [.word ((s.txHdr.len.setWidth 32 <<< 16) ||| (s.txHdr.id.setWidth 32 <<< 8) ||| s.txHdr.type.setWidth 32)] } ∧
    exec (.hostRead 0x01C) s = .next { s with replies := s.replies ++ [.word (s.rxSel.setWidth 32)] } ∧
    exec (.hostRead 0x028) s = .next { s with replies := s.replies ++ [.word s.errInfo] } ∧
    exec (.hostRead 0x02C) s = .next { s with replies := s.replies ++ [.word s.errCrc] } ∧
    exec (.hostRead 0x030) s =
      .next { s with replies := s.replies ++ [.word ((s.cnt.integ.setWidth 32 <<< 16) ||| s.cnt.rxok.setWidth 32)] } ∧
    exec (.hostRead 0x034) s =
      .next { s with replies := s.replies ++ [.word ((s.cnt.rxovf.setWidth 32 <<< 16) ||| s.cnt.decerr.setWidth 32)] } ∧
    exec (.hostRead 0x038) s =
      .next { s with replies := s.replies ++ [.word ((s.cnt.toktx.setWidth 32 <<< 16) ||| s.cnt.txok.setWidth 32)] } ∧
    exec (.hostRead 0x03C) s =
      .next { s with replies := s.replies ++ [.word ((s.cnt.encerr.setWidth 32 <<< 16) ||| s.cnt.tokdrop.setWidth 32)] } ∧
    exec (.hostRead 0x040) s = .next { s with replies := s.replies ++ [.word (s.nextId.setWidth 32)] }

/-- R46, R52: the fields of STATUS, IRQ among them. -/
def Obligations.HostReadReturnsStatus : Prop :=
  ∀ s : State, s.tokq.length ≤ 255 → (∀ c : Fin 7, s.rxq[c].length ≤ 255) → s.dstate ≠ .emit →
    ∃ v : Word, exec (.hostRead 0x004) s = .next { s with replies := s.replies ++ [.word v] } ∧
      [DState.huntSync1, .huntSync2, .readFormatHi, .readFormatLo, .readId, .readPayload, .readCrcHi,
        .readCrcLo][(v.extractLsb' 0 4).toNat]? = some s.dstate ∧
      v.getLsbD 4 = s.txStaged ∧
      [TxSrc.none, .host, .token][(v.extractLsb' 5 2).toNat]? = some s.txsrc ∧
      (v.getLsbD 7 = true ↔ s.evtPend &&& s.evtMask ≠ 0) ∧
      (∀ c : Fin 7, v.getLsbD (8 + c.val) = true ↔ 0 < s.rxq[c].length) ∧
      v.getLsbD 15 = false ∧
      (v.extractLsb' 16 8).toNat = s.tokq.length ∧
      (∀ c : Fin 7, s.rxSel.toNat = c.val → (v.extractLsb' 24 8).toNat = s.rxq[c].length) ∧
      (s.rxSel = 7 → v.extractLsb' 24 8 = 0)

/-- R49, R83: the views of the selected queue's head: RX_HDR, RX_CRC and the RX window. -/
def Obligations.HostReadReturnsRxView : Prop :=
  ∀ s : State,
    (∀ (c : Fin 7) (h : FrameRecord) (rest : List FrameRecord), s.rxSel.toNat = c.val → s.rxq[c] = h :: rest →
      exec (.hostRead 0x020) s =
        .next { s with replies := s.replies ++
          [.word ((1 <<< 31) ||| (h.len.setWidth 32 <<< 16) ||| (h.id.setWidth 32 <<< 8) ||| h.type.setWidth 32)] } ∧
      exec (.hostRead 0x024) s = .next { s with replies := s.replies ++ [.word (h.crc.setWidth 32)] } ∧
      ∀ (i : Nat) (b : Byte), i < 4095 →
        (h.payload[i]? = some b → i < h.len.toNat →
          exec (.hostRead (BitVec.ofNat 16 (0x8000 + 4 * i))) s =
            .next { s with replies := s.replies ++ [.word (b.setWidth 32)] }) ∧
        (h.len.toNat ≤ i →
          exec (.hostRead (BitVec.ofNat 16 (0x8000 + 4 * i))) s = .next { s with replies := s.replies ++ [.word 0] })) ∧
    ((s.rxSel = 7 ∨ ∃ c : Fin 7, s.rxSel.toNat = c.val ∧ s.rxq[c] = []) →
      exec (.hostRead 0x020) s = .next { s with replies := s.replies ++ [.word 0] } ∧
      exec (.hostRead 0x024) s = .next { s with replies := s.replies ++ [.word 0] } ∧
      ∀ i : Nat, i < 4095 →
        exec (.hostRead (BitVec.ofNat 16 (0x8000 + 4 * i))) s = .next { s with replies := s.replies ++ [.word 0] })

/-- R83, R306: the TXBUF window: a read returns the byte; a write stores bits 7..0 and leaves every other byte, or is rejected
while a frame is staged. -/
def Obligations.TxbufWindowReadsAndWrites : Prop :=
  ∀ (s : State) (i : Nat) (v : Word), i < 4095 →
    exec (.hostRead (BitVec.ofNat 16 (0x4000 + 4 * i))) s =
      .next { s with replies := s.replies ++ [.word ((s.txbuf.read i).setWidth 32)] } ∧
    (s.txStaged = true →
      exec (.hostWrite (BitVec.ofNat 16 (0x4000 + 4 * i)) v) s = .next { s with evtPend := s.evtPend ||| 0x80 }) ∧
    (s.txStaged = false → s.txbuf.wf →
      ∃ m : Mem, exec (.hostWrite (BitVec.ofNat 16 (0x4000 + 4 * i)) v) s = .next { s with txbuf := m } ∧
        ∀ j, m.read j = if j = i then v.extractLsb' 0 8 else s.txbuf.read j)

/-- R81, R84, R303: misaligned, unmapped and read-only accesses return 0 or change nothing, and raise REJECT. -/
def Obligations.RefusedAccessesRaiseReject : Prop :=
  (∀ (s : State) (off : Half),
    (off.extractLsb' 0 2 ≠ 0 ∨ (0x044 ≤ off.toNat ∧ off.toNat ≤ 0x3FFC) ∨ off.toNat = 0x7FFC ∨ 0xBFFC ≤ off.toNat) →
    exec (.hostRead off) s =
      .next { s with evtPend := s.evtPend ||| 0x80, replies := s.replies ++ [.word 0x00000000] } ∧
    ∀ v : Word, exec (.hostWrite off v) s = .next { s with evtPend := s.evtPend ||| 0x80 }) ∧
  (∀ (s : State) (off : Half) (v : Word),
    off ∈ [0x004#16, 0x014, 0x020, 0x024, 0x028, 0x02C, 0x030, 0x034, 0x038, 0x03C] →
    exec (.hostWrite off v) s = .next { s with evtPend := s.evtPend ||| 0x80 }) ∧
  ∀ (s : State) (i : Nat) (v : Word), i < 4095 →
    exec (.hostWrite (BitVec.ofNat 16 (0x8000 + 4 * i)) v) s = .next { s with evtPend := s.evtPend ||| 0x80 }

/-- R304, R307, R305: the plain registers take their implemented bits, EVT_PEND is write-one-to-clear, TX_HDR is locked while a
frame is staged. -/
def Obligations.HostWriteSetsRegister : Prop :=
  ∀ (s : State) (v : Word),
    exec (.hostWrite 0x000 v) s = .next { s with ctrl := v.extractLsb' 0 2 } ∧
    exec (.hostWrite 0x00C v) s = .next { s with evtMask := v.extractLsb' 0 8 } ∧
    exec (.hostWrite 0x01C v) s = .next { s with rxSel := v.extractLsb' 0 3 } ∧
    exec (.hostWrite 0x040 v) s = .next { s with nextId := v.extractLsb' 0 8 } ∧
    (∃ p : Byte, exec (.hostWrite 0x008 v) s = .next { s with evtPend := p } ∧
      ∀ k < 8, p.getLsbD k = (s.evtPend.getLsbD k && !v.getLsbD k)) ∧
    (s.txStaged = true → exec (.hostWrite 0x018 v) s = .next { s with evtPend := s.evtPend ||| 0x80 }) ∧
    (s.txStaged = false →
      exec (.hostWrite 0x018 v) s =
        .next { s with txHdr := ⟨v.extractLsb' 0 8, v.extractLsb' 8 8, v.extractLsb' 16 16⟩ })

/-- R308, R122: a write to CMD runs the command its opcode names; a reserved opcode is rejected and changes nothing else. -/
def Obligations.CmdWriteRunsCommand : Prop :=
  ∀ (s : State) (v : Word),
    (∀ i, decodeCommand v = .ok i → exec (.hostWrite 0x010 v) s = exec i s) ∧
    (v.extractLsb' 0 8 ∉ [0x00#8, 0x01, 0x02, 0x10, 0x11, 0x20, 0x21, 0x22, 0x30, 0x31, 0x32, 0x40] →
      exec (.hostWrite 0x010 v) s = .next { s with evtPend := s.evtPend ||| 0x80 })

/-! Encodings (30_encoding.md). -/

/-- R123: what a write to CMD does depends on the opcode and the operand bits R121 lists, on no other bit of the word. -/
def Obligations.UnusedOperandBitsIgnored : Prop :=
  ∀ (s : State) (v w : Word), v.extractLsb' 0 8 = w.extractLsb' 0 8 →
    (v.extractLsb' 0 8 ∈ [0x00#8, 0x01, 0x11, 0x21, 0x22, 0x32, 0x40] →
      exec (.hostWrite 0x010 v) s = exec (.hostWrite 0x010 w) s) ∧
    (v.extractLsb' 0 8 = 0x10 → v.getLsbD 8 = w.getLsbD 8 →
      exec (.hostWrite 0x010 v) s = exec (.hostWrite 0x010 w) s) ∧
    (v.extractLsb' 0 8 ∈ [0x02#8, 0x20, 0x30] → v.extractLsb' 8 8 = w.extractLsb' 8 8 →
      exec (.hostWrite 0x010 v) s = exec (.hostWrite 0x010 w) s) ∧
    (v.extractLsb' 0 8 = 0x31 → v.extractLsb' 8 16 = w.extractLsb' 8 16 →
      exec (.hostWrite 0x010 v) s = exec (.hostWrite 0x010 w) s)

/-- R101, R121, R107, R108: a few words, written out from the encodings. -/
def Obligations.TableWordsDecode : Prop :=
  decodeTableWord 32 0x00003102 = some (.crcByte 0x31) ∧
  decodeTableWord 32 0x00000110 = some (.txSend true) ∧
  decodeTableWord 32 0x00014231 = some (.tokNack 0x42 0x01) ∧
  decodeTableWord 32 0xFFFFFF00 = some .nop ∧
  decodeTableWord 32 0x00000003 = none ∧
  decodeTableWord 16 0x3005 = some (.frameData 5) ∧
  decodeTableWord 16 0x80FF = some (.frameAck 0x0FF) ∧
  decode (.function 0x2) [0x04] = .ok (.fnTransmitFile, [])

/-- Decoding the encoding of a well-formed instruction, whatever bytes follow, gives it back (R102, R112, R121). -/
def Obligations.DecodeOfEncode : Prop :=
  ∀ i : Instr, i.wellFormed = true → ∀ rest, decode (encode i).1 ((encode i).2 ++ rest) = .ok (i, rest)

/-- R102, R108: every format word is one frame type, and its encoding is that word, high byte first. -/
def Obligations.EncodeOfFormatWord : Prop :=
  ∀ w : Half, encode (decodeFormat w) = (.format, [hiByte w, loByte w]) ∧
    ∃ row ∈ frameRows, decodeFormat w = row.1 (w.extractLsb' 0 12) ∧ row.2.1 = w.extractLsb' 12 4

/-! Events, reset and the whole machine (60_exceptions.md, 70_reset_and_hazards.md). -/

/-- R380, R55: RESET gives every state element its reset value; TXBUF takes the parameter `txbuf_init`. DBUF has none to give
(log 5). -/
def Obligations.ResetSetsEveryElement : Prop :=
  ∀ s : State, ∃ t, exec .reset s = .next t ∧
    t.hcrc = 0x0000 ∧ t.dstate = .huntSync1 ∧
    t.dfmt = 0 ∧ t.did = 0 ∧ t.didx = 0 ∧ t.dcrc = 0 ∧ t.dcrcx = 0 ∧
    (∀ c : Fin 7, t.rxq[c] = []) ∧ t.tokq = [] ∧ t.nextId = 0x00 ∧
    t.txHdr = ⟨0, 0, 0⟩ ∧ t.txStaged = false ∧ t.txSnap = ⟨0, 0, 0, 0, false⟩ ∧
    t.txsrc = .none ∧ t.txframe = [] ∧ t.txpos = 0 ∧ t.txbuf = s.params.txbufInit ∧
    t.ctrl = 3 ∧ t.evtPend = 0x00 ∧ t.evtMask = 0x00 ∧ t.rxSel = 0 ∧
    t.errInfo = 0 ∧ t.errCrc = 0 ∧ t.cnt = ⟨0, 0, 0, 0, 0, 0, 0, 0⟩ ∧
    t.irq = false

/-- R348: in every state every instruction has a next state; nothing traps, halts or is refused. -/
def Obligations.EveryInstructionCompletes : Prop :=
  ∀ (i : Instr) (s : State), ∃ t, exec i s = .next t

/-- R47, R350: a pending event bit is cleared only by a one written to it at EVT_PEND and by reset. -/
def Obligations.PendingBitsAreSticky : Prop :=
  ∀ (i : Instr) (s t : State) (k : Nat), i ≠ .reset → s.evtPend.getLsbD k = true → exec i s = .next t →
    t.evtPend.getLsbD k = true ∨ ∃ v : Word, i = .hostWrite 0x008 v ∧ v.getLsbD k = true ∧ k < 8

/-- R347: REJECT is newly raised by, and only by, the refused accesses and commands, and they change nothing but its bit (what
a refused read returns is another statement's). -/
def Obligations.RejectRaisedExactlyWhenRefused : Prop :=
  ∀ (i : Instr) (s t : State), exec i s = .next t →
    (s.evtPend.getLsbD 7 = false → (t.evtPend.getLsbD 7 = true ↔ refusedIn i s)) ∧
    (refusedIn i s → t = { s with evtPend := s.evtPend ||| 0x80, replies := t.replies })

/-- R351: the receive path (an RX byte, DEC_ABORT) and a dropped token change nothing of the transmit path but TOKQ; the
transmit path, and a refused access or command, nothing of the receive path. -/
def Obligations.ErrorsDoNotCross : Prop :=
  (∀ (s t : State) (b r : Byte),
    exec (.rxByte b) s = .next t ∨ exec .decAbort s = .next t ∨ exec (.tokAck b) s = .next t ∨
      exec (.tokNack b r) s = .next t →
    t.txStaged = s.txStaged ∧ t.txSnap = s.txSnap ∧ t.txHdr = s.txHdr ∧ t.txbuf = s.txbuf ∧ t.txsrc = s.txsrc ∧
    t.txframe = s.txframe ∧ t.txpos = s.txpos ∧ t.nextId = s.nextId ∧ t.hcrc = s.hcrc ∧ t.params = s.params) ∧
  ∀ (i : Instr) (s t : State), ((∃ a, i = .txSend a) ∨ i = .txCancel ∨ i = .txPull ∨ refusedIn i s) →
    exec i s = .next t →
    t.dstate = s.dstate ∧ t.dfmt = s.dfmt ∧ t.did = s.did ∧ t.didx = s.didx ∧ t.dcrc = s.dcrc ∧ t.dcrcx = s.dcrcx ∧
    t.dbuf = s.dbuf ∧ t.rxq = s.rxq ∧ t.errInfo = s.errInfo ∧ t.errCrc = s.errCrc ∧ t.hcrc = s.hcrc ∧
    t.params = s.params

/-- R265: no instruction but RX_POP, RXQ_CLEAR (under either name) and reset removes or changes a queued frame: every
channel's queue only grows at the tail, by at most one frame. -/
def Obligations.QueuedFramesAreStable : Prop :=
  ∀ (i : Instr) (s t : State) (c : Fin 7),
    (∀ b, i ≠ .rxPop b) → i ≠ .rxqClear → i ≠ .reset →
    (∀ v : Word, i = .hostWrite 0x010 v → v.extractLsb' 0 8 ≠ 0x20 ∧ v.extractLsb' 0 8 ≠ 0x21) → exec i s = .next t →
    t.rxq[c] = s.rxq[c] ∨ ∃ r, t.rxq[c] = s.rxq[c] ++ [r]

/-! Invariants of every step. -/

/-- The buffers keep their canonical form. -/
def Obligations.StepKeepsMemory : Prop :=
  ∀ s t : State, s.params.ok → s.memOk → step s = .next t → t.params = s.params ∧ t.memOk

/-- R33, R34, R54: EMIT is never held, DIDX fits the decoder's state, DCRC is the CRC of the bytes received. -/
def Obligations.StepKeepsDecoder : Prop :=
  ∀ s t : State, s.dbuf.wf → s.decoderOk → step s = .next t → t.decoderOk

/-- R36, R37, R260: the receive queues keep their capacity and hold valid frames, each in the channel of its type. -/
def Obligations.StepKeepsRxQueues : Prop :=
  ∀ s t : State, s.decoderOk → s.rxqOk → step s = .next t → t.rxqOk

/-- R38: TOKQ keeps its capacity, and an ACK token has reason 0. -/
def Obligations.StepKeepsTokenQueue : Prop :=
  ∀ s t : State, s.tokqOk → step s = .next t → t.tokqOk

/-- R42, R54, R183, R185: what is in transmission is the encoding of the staged frame or of a token, with TXPOS inside it. -/
def Obligations.StepKeepsTransmitter : Prop :=
  ∀ s t : State, s.stagedOk → s.serialiserOk → step s = .next t → t.stagedOk ∧ t.serialiserOk

/-- The state after reset is safe for every choice of the parameters (log 3, 4); State.reset is one of them. -/
def Obligations.ResetStateIsSafe : Prop :=
  (∀ p : Params, p.ok → (State.resetWith p).Inv) ∧ State.reset.Inv

/-! Steps (log 1, 10, 11, 12: the model's own fetching). -/

/-- A step performs the next event's instruction with the event taken from `inbox`, and nothing when none waits (R30); reset
keeps the parameters, the events to come and the replies. -/
def Obligations.StepRunsNextEvent : Prop :=
  (∀ s : State, s.inbox = [] → step s = .next s) ∧
  (∀ (s : State) (e : Stimulus) (rest : List Stimulus), s.inbox = e :: rest →
    step s = exec e.instr { s with inbox := rest }) ∧
  ∀ s : State, ∃ t, exec .reset s = .next t ∧ t.params = s.params ∧ t.inbox = s.inbox ∧ t.replies = s.replies

/-- No instruction sees or changes the events still to come: stepping through them is performing them one by one (R90). -/
def Obligations.StepsPerformTheInbox : Prop :=
  ∀ (es rest : List Stimulus) (s : State), ∃ t,
    perform es s = .next t ∧ steps es.length { s with inbox := es ++ rest } = .next { t with inbox := rest }

/-- A word placed by `withFetchWord` is what the next step runs, from the state with the event taken. -/
def Obligations.PlacedWordIsRun : Prop :=
  ∀ (s : State) (nbits w : Nat) (i : Instr), decodeTableWord nbits w = some i →
    step (s.withFetchWord nbits w) = exec i { s.withFetchWord nbits w with inbox := s.inbox }
end

