-- ==== Sys2Proof/Laws/Crc.lean ====
section
/-! SUPPORT. Laws of the CRC engine: the shift step is linear and injective, and so is an update in each argument. -/

namespace Sys2Proof.Machine

/-- The shift step is linear over exclusive or. -/
theorem crcStep_xor (a b : Half) : crcStep (a ^^^ b) = crcStep a ^^^ crcStep b := by
  unfold crcStep
  rw [BitVec.getLsbD_xor, BitVec.shiftLeft_xor_distrib]
  cases a.getLsbD 15 <;> cases b.getLsbD 15 <;>
    simp only [Bool.xor_false, Bool.xor_true, Bool.not_true, Bool.not_false, if_true, if_false, Bool.false_eq_true] <;>
    apply BitVec.eq_of_getLsbD_eq <;> intro i _ <;> simp only [BitVec.getLsbD_xor] <;>
    cases (a <<< 1).getLsbD i <;> cases (b <<< 1).getLsbD i <;> cases Config.crcPoly.getLsbD i <;> rfl

@[simp] theorem crcSteps_zero_left (c : Half) : crcSteps 0 c = c := rfl

theorem crcSteps_succ (n : Nat) (c : Half) : crcSteps (n + 1) c = crcSteps n (crcStep c) := rfl

/-- Any number of shift steps is linear. -/
theorem crcSteps_xor (n : Nat) (a b : Half) : crcSteps n (a ^^^ b) = crcSteps n a ^^^ crcSteps n b := by
  induction n generalizing a b with
  | zero => rfl
  | succ n ih => simp only [crcSteps_succ, crcStep_xor, ih]

/-- The low byte of the register is shifted up unchanged by eight steps. -/
theorem crcSteps_lowByte : ∀ b : Byte, crcSteps 8 (b.setWidth 16) = b.setWidth 16 <<< 8 := by decide

/-- The table is linear. -/
theorem crcTable_xor (a b : Byte) : crcTable (a ^^^ b) = crcTable a ^^^ crcTable b := by
  unfold crcTable
  rw [← crcSteps_xor, ← BitVec.shiftLeft_xor_distrib, BitVec.setWidth_xor]

/-- Only entry 0 of the table has a low byte of 0. -/
theorem crcTable_lowByte_eq_zero : ∀ b : Byte, (crcTable b).extractLsb' 0 8 = 0 → b = 0 := by decide

@[simp] theorem crcTable_zero : crcTable 0 = 0 := by decide

@[simp] theorem crcUpdate_zero : crcUpdate 0 0 = 0 := by decide

/-- An update is linear in the register and the byte together. -/
theorem crcUpdate_xor (c d : Half) (a b : Byte) : crcUpdate (c ^^^ d) (a ^^^ b) = crcUpdate c a ^^^ crcUpdate d b := by
  have hi : hiByte (c ^^^ d) ^^^ (a ^^^ b) = (hiByte c ^^^ a) ^^^ (hiByte d ^^^ b) := by
    unfold hiByte
    rw [BitVec.extractLsb'_xor]
    ac_rfl
  unfold crcUpdate
  rw [hi, crcTable_xor, BitVec.shiftLeft_xor_distrib]
  ac_rfl

/-- An update gives 0 only from the register whose high byte is the byte taken in and whose low byte is 0. -/
theorem crcUpdate_eq_zero {c : Half} {b : Byte} (h : crcUpdate c b = 0) : hiByte c = b ∧ loByte c = 0 := by
  have hl : (crcTable (hiByte c ^^^ b)).extractLsb' 0 8 = 0 := by
    have := congrArg (BitVec.extractLsb' 0 8) h
    unfold crcUpdate at this
    rw [BitVec.extractLsb'_xor] at this
    have hs : (c <<< 8).extractLsb' 0 8 = 0 := by
      apply BitVec.eq_of_getLsbD_eq
      intro i hi
      simp [hi]
    rw [hs] at this
    simpa using this
  have hz := crcTable_lowByte_eq_zero _ hl
  have hh : hiByte c = b := by
    have := congrArg (· ^^^ b) hz
    simpa [BitVec.xor_assoc] using this
  refine ⟨hh, ?_⟩
  have h8 : c <<< 8 = 0 := by
    unfold crcUpdate at h
    rw [hz, crcTable_zero] at h
    simpa using h
  apply BitVec.eq_of_getLsbD_eq
  intro i hi
  have := congrArg (fun v : Half => v.getLsbD (8 + i)) h8
  simp only [BitVec.getLsbD_shiftLeft] at this
  unfold loByte
  rw [BitVec.getLsbD_extractLsb']
  simpa [hi, show 8 + i < 16 by omega] using this

/-- For one byte, different registers stay different. -/
theorem crcUpdate_left_injective {c d : Half} {b : Byte} (h : crcUpdate c b = crcUpdate d b) : c = d := by
  have hx : crcUpdate (c ^^^ d) 0 = 0 := by
    have := crcUpdate_xor c d b b
    rw [BitVec.xor_self, h, BitVec.xor_self] at this
    exact this
  obtain ⟨h1, h2⟩ := crcUpdate_eq_zero hx
  have hz : c ^^^ d = 0 := by
    have : c ^^^ d = hiByte (c ^^^ d) ++ loByte (c ^^^ d) := by
      unfold hiByte loByte
      apply BitVec.eq_of_getLsbD_eq
      intro i hi
      rw [BitVec.getLsbD_append]
      by_cases h8 : i < 8
      · simp [h8]
      · have : i - 8 < 8 := by omega
        simp [h8, this, show 8 + (i - 8) = i by omega]
    rw [this, h1, h2]
    rfl
  exact BitVec.xor_eq_zero_iff.mp hz

/-- From one register, different bytes give different registers. -/
theorem crcUpdate_right_injective {c : Half} {a b : Byte} (h : crcUpdate c a = crcUpdate c b) : a = b := by
  have hx : crcUpdate 0 (a ^^^ b) = 0 := by
    have := crcUpdate_xor c c a b
    rw [BitVec.xor_self, h, BitVec.xor_self] at this
    exact this
  have h1 := (crcUpdate_eq_zero hx).1
  exact BitVec.xor_eq_zero_iff.mp (h1.symm.trans (by decide))

@[simp] theorem crcFrom_nil (c : Half) : crcFrom c [] = c := rfl

@[simp] theorem crcFrom_cons (c : Half) (b : Byte) (bs : List Byte) : crcFrom c (b :: bs) = crcFrom (crcUpdate c b) bs := rfl

/-- Different registers stay different over any bytes. -/
theorem crcFrom_left_injective {c d : Half} {bs : List Byte} (h : crcFrom c bs = crcFrom d bs) : c = d := by
  induction bs generalizing c d with
  | nil => exact h
  | cons b bs ih => exact crcUpdate_left_injective (ih h)

end Sys2Proof.Machine
end

