-- ==== Sys2Proof/Laws/Encoding.lean ====
section
/-! SUPPORT. The fields of an encoded word are the ones it was built from. -/

namespace Sys2Proof

/-- Four bytes of a word make the word. -/
@[simp] theorem wordOfBytes_wordBytes (v : Word) :
    wordOfBytes (v.extractLsb' 0 8) (v.extractLsb' 8 8) (v.extractLsb' 16 8) (v.extractLsb' 24 8) = v := by
  unfold wordOfBytes
  ext i hi
  simp only [BitVec.getElem_append, BitVec.getElem_extractLsb']
  split_ifs <;> simp only [← BitVec.getLsbD_eq_getElem] <;> congr 1 <;> omega

/-- Two bytes of a half word make the half word. -/
@[simp] theorem halfOf_hiByte_loByte (w : Half) : halfOf (hiByte w) (loByte w) = w := by
  unfold halfOf hiByte loByte
  ext i hi
  simp only [BitVec.getElem_append, BitVec.getElem_extractLsb']
  split_ifs <;> simp only [← BitVec.getLsbD_eq_getElem] <;> congr 1 <;> omega

@[simp] theorem hiByte_halfOf (h l : Byte) : hiByte (halfOf h l) = h := by
  unfold halfOf hiByte
  exact BitVec.extractLsb'_append_eq_left

@[simp] theorem loByte_halfOf (h l : Byte) : loByte (halfOf h l) = l := by
  unfold halfOf loByte
  exact BitVec.extractLsb'_append_eq_right

/-- A byte widened to a half word is its low byte. -/
theorem loByte_setWidth (b : Byte) : loByte (b.setWidth 16) = b := by
  unfold loByte
  ext i hi
  simp [show i < 16 by omega, BitVec.getLsbD_eq_getElem hi]

@[simp] theorem fmtType_formatWord (t : BitVec 4) (n : BitVec 12) : fmtType (formatWord t n) = t := by
  unfold fmtType formatWord
  exact BitVec.extractLsb'_append_eq_left

@[simp] theorem fmtLen_formatWord (t : BitVec 4) (n : BitVec 12) : fmtLen (formatWord t n) = n := by
  unfold fmtLen formatWord
  exact BitVec.extractLsb'_append_eq_right

@[simp] theorem formatWord_fields (w : Half) : formatWord (fmtType w) (fmtLen w) = w := by
  unfold formatWord fmtType fmtLen
  ext i hi
  simp only [BitVec.getElem_append, BitVec.getElem_extractLsb']
  split_ifs <;> simp only [← BitVec.getLsbD_eq_getElem] <;> congr 1 <;> omega

@[simp] theorem cmdOp_commandWord (op a8 : Byte) (a16 : Half) : cmdOp (commandWord op a8 a16) = op := by
  unfold cmdOp commandWord
  ext i hi
  simp only [BitVec.getElem_extractLsb', BitVec.getLsbD_append]
  simp [show i < 8 + 8 by omega, show i < 8 by omega]

@[simp] theorem cmdA8_commandWord (op a8 : Byte) (a16 : Half) : cmdA8 (commandWord op a8 a16) = a8 := by
  unfold cmdA8 commandWord
  ext i hi
  simp only [BitVec.getElem_extractLsb', BitVec.getLsbD_append]
  simp [show 8 + i < 8 + 8 by omega, BitVec.getLsbD_eq_getElem hi]

@[simp] theorem cmdA16_commandWord (op a8 : Byte) (a16 : Half) : cmdA16 (commandWord op a8 a16) = a16 := by
  unfold cmdA16 commandWord
  exact BitVec.extractLsb'_append_eq_left

/-- A command word's bytes are decoded as the command word. -/
theorem decode_command (op a8 : Byte) (a16 : Half) (rest : List Byte) {i : Instr}
    (h : decodeCommand (commandWord op a8 a16) = .ok i) :
    decode (encodeCommand op a8 a16).1 ((encodeCommand op a8 a16).2 ++ rest) = .ok (i, rest) := by
  simp [encodeCommand, wordBytes, decode, h]

/-- A format word's bytes are decoded as the format word. -/
theorem decode_format (t : BitVec 4) (n : BitVec 12) (rest : List Byte) :
    decode (encodeFormat t n).1 ((encodeFormat t n).2 ++ rest) = .ok (decodeFormat (formatWord t n), rest) := by
  simp [encodeFormat, decode]

/-- A defined opcode is decoded to a command, any other is refused by name. -/
theorem decodeCommand_error {v : Word} {e : DecodeError} (h : decodeCommand v = .error e) :
    e = .reservedOpcode (cmdOp v) ∧ cmdOp v ∉ Config.opcodes := by
  unfold decodeCommand at h
  split at h <;> cases h
  refine ⟨rfl, ?_⟩
  simp only [Config.opcodes, List.mem_cons, List.not_mem_nil, or_false, not_or]
  exact ⟨‹_›, ‹_›, ‹_›, ‹_›, ‹_›, ‹_›, ‹_›, ‹_›, ‹_›, ‹_›, ‹_›, ‹_›⟩

/-- A reserved opcode is refused by name. -/
theorem decodeCommand_reserved {v : Word} (h : cmdOp v ∉ Config.opcodes) :
    decodeCommand v = .error (.reservedOpcode (cmdOp v)) := by
  simp only [Config.opcodes, List.mem_cons, List.not_mem_nil, or_false, not_or] at h
  unfold decodeCommand
  split <;> simp_all

end Sys2Proof
end

