-- ==== Sys2Proof/Laws/Mem.lean ====
section
/-! SUPPORT. The buffers: a read after a write, and the canonical form is kept. -/

namespace Sys2Proof.Machine

@[simp] theorem Mem.read_nil (i : Nat) : Mem.read [] i = 0 := rfl

theorem Mem.wf_nil : Mem.wf [] := by simp [Mem.wf]

/-- A canonical list's tail is canonical, and every index in it is above the head's. -/
theorem Mem.wf_cons {a : Nat} {b : Byte} {m : Mem} :
    Mem.wf ((a, b) :: m) ↔ (∀ c ∈ m, a < c.1) ∧ a < Config.maxPayload ∧ b ≠ 0 ∧ Mem.wf m := by
  simp only [Mem.wf, List.pairwise_cons, List.forall_mem_cons]
  tauto

/-- An index below every listed index reads 0. -/
theorem Mem.read_eq_zero {m : Mem} {i : Nat} (h : ∀ c ∈ m, i < c.1) : m.read i = 0 := by
  induction m with
  | nil => rfl
  | cons c m ih =>
    obtain ⟨a, b⟩ := c
    simp only [List.forall_mem_cons] at h
    simp [Mem.read, Nat.ne_of_gt h.1, ih h.2]

@[simp] theorem Mem.read_cons (a : Nat) (b : Byte) (m : Mem) (j : Nat) :
    Mem.read ((a, b) :: m) j = if a = j then b else m.read j := rfl

/-- What a stored byte leaves to read, everywhere. -/
theorem Mem.read_put {m : Mem} (hm : m.wf) (i j : Nat) (v : Byte) :
    (m.put i v).read j = if j = i then v else m.read j := by
  induction m with
  | nil =>
    unfold Mem.put
    rcases eq_or_ne v 0 with hv | hv <;> rcases eq_or_ne j i with hj | hj
    · rw [if_pos hv, if_pos hj, hv, Mem.read_nil]
    · rw [if_pos hv, if_neg hj]
    · rw [if_neg hv, if_pos hj, Mem.read_cons, if_pos hj.symm]
    · rw [if_neg hv, if_neg hj, Mem.read_cons, if_neg hj.symm]
  | cons c m ih =>
    obtain ⟨a, b⟩ := c
    obtain ⟨hlt, -, -, hm'⟩ := Mem.wf_cons.1 hm
    simp only [Mem.put]
    rcases lt_trichotomy i a with h | h | h
    · have h0 : Mem.read ((a, b) :: m) i = 0 := Mem.read_eq_zero fun c hc => by
        rcases List.mem_cons.1 hc with rfl | hc
        exacts [h, lt_trans h (hlt c hc)]
      rw [if_pos h]
      rcases eq_or_ne v 0 with hv | hv <;> rcases eq_or_ne j i with hj | hj
      · rw [if_pos hv, if_pos hj, hj, h0, hv]
      · rw [if_pos hv, if_neg hj]
      · rw [if_neg hv, if_pos hj, Mem.read_cons, if_pos hj.symm]
      · rw [if_neg hv, if_neg hj, Mem.read_cons, if_neg hj.symm]
    · subst h
      rw [if_neg (by omega), if_pos rfl]
      rcases eq_or_ne v 0 with hv | hv <;> rcases eq_or_ne j i with hj | hj
      · rw [if_pos hv, if_pos hj, hj, hv, Mem.read_eq_zero hlt]
      · rw [if_pos hv, if_neg hj, Mem.read_cons, if_neg hj.symm]
      · rw [if_neg hv, if_pos hj, Mem.read_cons, if_pos hj.symm]
      · rw [if_neg hv, if_neg hj, Mem.read_cons, Mem.read_cons, if_neg hj.symm, if_neg hj.symm]
    · rw [if_neg (by omega), if_neg (by omega), Mem.read_cons, Mem.read_cons, ih hm']
      rcases eq_or_ne j i with hj | hj
      · rw [if_pos hj, if_pos hj, if_neg (by omega)]
      · rw [if_neg hj, if_neg hj]

/-- Every entry of a list after a store is the stored one or an old one. -/
theorem Mem.mem_put {m : Mem} {i : Nat} {v : Byte} {c : Host.Cell} (h : c ∈ m.put i v) : c = (i, v) ∨ c ∈ m := by
  induction m with
  | nil => unfold Mem.put at h; split at h <;> simp_all
  | cons d m ih =>
    obtain ⟨a, b⟩ := d
    unfold Mem.put at h
    split_ifs at h
    · exact .inr h
    · rcases List.mem_cons.1 h with h | h <;> simp [h]
    · exact .inr (List.mem_cons_of_mem _ h)
    · rcases List.mem_cons.1 h with h | h <;> simp [h]
    · rcases List.mem_cons.1 h with h | h
      · simp [h]
      · rcases ih h with h | h <;> simp [h]

/-- A store keeps the canonical form. -/
theorem Mem.wf_put {m : Mem} (hm : m.wf) {i : Nat} (hi : i < Config.maxPayload) (v : Byte) : (m.put i v).wf := by
  induction m with
  | nil =>
    unfold Mem.put
    split
    · exact Mem.wf_nil
    · next hv => exact Mem.wf_cons.2 ⟨by simp, hi, hv, Mem.wf_nil⟩
  | cons c m ih =>
    obtain ⟨a, b⟩ := c
    obtain ⟨hlt, ha, hb, hm'⟩ := Mem.wf_cons.1 hm
    simp only [Mem.put]
    rcases lt_trichotomy i a with h | h | h
    · by_cases hv : v = 0
      · rwa [if_pos h, if_pos hv]
      · rw [if_pos h, if_neg hv]
        refine Mem.wf_cons.2 ⟨?_, hi, hv, hm⟩
        simp only [List.forall_mem_cons]
        exact ⟨h, fun c hc => lt_trans h (hlt c hc)⟩
    · subst h
      by_cases hv : v = 0
      · rwa [if_neg (by omega), if_pos rfl, if_pos hv]
      · rw [if_neg (by omega), if_pos rfl, if_neg hv]
        exact Mem.wf_cons.2 ⟨hlt, hi, hv, hm'⟩
    · rw [if_neg (by omega), if_neg (by omega)]
      refine Mem.wf_cons.2 ⟨fun c hc => ?_, ha, hb, ih hm'⟩
      rcases Mem.mem_put hc with rfl | hc
      · exact h
      · exact hlt c hc

/-- A write keeps the canonical form, at any index. -/
theorem Mem.wf_write {m : Mem} (hm : m.wf) (i : Nat) (v : Byte) : (m.write i v).wf := by
  unfold Mem.write
  split
  · next h => exact Mem.wf_put hm h v
  · exact hm

/-- What a write leaves to read: the byte written at its index, every other byte as before. -/
theorem Mem.read_write {m : Mem} (hm : m.wf) {i : Nat} (hi : i < Config.maxPayload) (j : Nat) (v : Byte) :
    (m.write i v).read j = if j = i then v else m.read j := by
  simp only [Mem.write, hi, if_true]
  exact Mem.read_put hm i j v

@[simp] theorem Mem.length_slice (m : Mem) (n : Nat) : (m.slice n).length = n := by simp [Mem.slice]

@[simp] theorem Mem.slice_zero (m : Mem) : m.slice 0 = [] := rfl

/-- Writing the next byte extends the slice by it. -/
theorem Mem.slice_write {m : Mem} (hm : m.wf) {n : Nat} (hn : n < Config.maxPayload) (v : Byte) :
    (m.write n v).slice (n + 1) = m.slice n ++ [v] := by
  simp only [Mem.slice, List.range_succ, List.map_append, List.map_cons, List.map_nil]
  congr 1
  · refine List.map_congr_left fun j hj => ?_
    rw [Mem.read_write hm hn, if_neg (by have := List.mem_range.1 hj; omega)]
  · simp [Mem.read_write hm hn]

/-- A write above a slice leaves it. -/
theorem Mem.slice_write_of_le {m : Mem} (hm : m.wf) {n i : Nat} (hi : i < Config.maxPayload) (h : n ≤ i) (v : Byte) :
    (m.write i v).slice n = m.slice n := by
  refine List.map_congr_left fun j hj => ?_
  rw [Mem.read_write hm hi, if_neg (by have := List.mem_range.1 hj; omega)]

end Sys2Proof.Machine
end

