-- ==== Sys2Proof/Laws/State.lean ====
section
/-! SUPPORT. One lemma per field per shared update of State: no later proof unfolds a record update. -/

namespace Sys2Proof.Machine

/-! What raise E does to each field. -/

@[simp] theorem State.raise_hcrc (e : Evt) (s : State) : (s.raise e).hcrc = s.hcrc := rfl
@[simp] theorem State.raise_dstate (e : Evt) (s : State) : (s.raise e).dstate = s.dstate := rfl
@[simp] theorem State.raise_dfmt (e : Evt) (s : State) : (s.raise e).dfmt = s.dfmt := rfl
@[simp] theorem State.raise_did (e : Evt) (s : State) : (s.raise e).did = s.did := rfl
@[simp] theorem State.raise_didx (e : Evt) (s : State) : (s.raise e).didx = s.didx := rfl
@[simp] theorem State.raise_dcrc (e : Evt) (s : State) : (s.raise e).dcrc = s.dcrc := rfl
@[simp] theorem State.raise_dcrcx (e : Evt) (s : State) : (s.raise e).dcrcx = s.dcrcx := rfl
@[simp] theorem State.raise_dbuf (e : Evt) (s : State) : (s.raise e).dbuf = s.dbuf := rfl
@[simp] theorem State.raise_rxq (e : Evt) (s : State) : (s.raise e).rxq = s.rxq := rfl
@[simp] theorem State.raise_tokq (e : Evt) (s : State) : (s.raise e).tokq = s.tokq := rfl
@[simp] theorem State.raise_nextId (e : Evt) (s : State) : (s.raise e).nextId = s.nextId := rfl
@[simp] theorem State.raise_txHdr (e : Evt) (s : State) : (s.raise e).txHdr = s.txHdr := rfl
@[simp] theorem State.raise_txStaged (e : Evt) (s : State) : (s.raise e).txStaged = s.txStaged := rfl
@[simp] theorem State.raise_txSnap (e : Evt) (s : State) : (s.raise e).txSnap = s.txSnap := rfl
@[simp] theorem State.raise_txsrc (e : Evt) (s : State) : (s.raise e).txsrc = s.txsrc := rfl
@[simp] theorem State.raise_txframe (e : Evt) (s : State) : (s.raise e).txframe = s.txframe := rfl
@[simp] theorem State.raise_txpos (e : Evt) (s : State) : (s.raise e).txpos = s.txpos := rfl
@[simp] theorem State.raise_txbuf (e : Evt) (s : State) : (s.raise e).txbuf = s.txbuf := rfl
@[simp] theorem State.raise_ctrl (e : Evt) (s : State) : (s.raise e).ctrl = s.ctrl := rfl
@[simp] theorem State.raise_evtPend (e : Evt) (s : State) : (s.raise e).evtPend = s.evtPend ||| e.flag := rfl
@[simp] theorem State.raise_evtMask (e : Evt) (s : State) : (s.raise e).evtMask = s.evtMask := rfl
@[simp] theorem State.raise_rxSel (e : Evt) (s : State) : (s.raise e).rxSel = s.rxSel := rfl
@[simp] theorem State.raise_errInfo (e : Evt) (s : State) : (s.raise e).errInfo = s.errInfo := rfl
@[simp] theorem State.raise_errCrc (e : Evt) (s : State) : (s.raise e).errCrc = s.errCrc := rfl
@[simp] theorem State.raise_cnt (e : Evt) (s : State) : (s.raise e).cnt = e.count s.cnt := rfl
@[simp] theorem State.raise_params (e : Evt) (s : State) : (s.raise e).params = s.params := rfl
@[simp] theorem State.raise_inbox (e : Evt) (s : State) : (s.raise e).inbox = s.inbox := rfl
@[simp] theorem State.raise_replies (e : Evt) (s : State) : (s.raise e).replies = s.replies := rfl

/-! What the write-one-to-clear does to each field. -/

@[simp] theorem State.acknowledge_hcrc (v : Byte) (s : State) : (s.acknowledge v).hcrc = s.hcrc := rfl
@[simp] theorem State.acknowledge_dstate (v : Byte) (s : State) : (s.acknowledge v).dstate = s.dstate := rfl
@[simp] theorem State.acknowledge_dfmt (v : Byte) (s : State) : (s.acknowledge v).dfmt = s.dfmt := rfl
@[simp] theorem State.acknowledge_did (v : Byte) (s : State) : (s.acknowledge v).did = s.did := rfl
@[simp] theorem State.acknowledge_didx (v : Byte) (s : State) : (s.acknowledge v).didx = s.didx := rfl
@[simp] theorem State.acknowledge_dcrc (v : Byte) (s : State) : (s.acknowledge v).dcrc = s.dcrc := rfl
@[simp] theorem State.acknowledge_dcrcx (v : Byte) (s : State) : (s.acknowledge v).dcrcx = s.dcrcx := rfl
@[simp] theorem State.acknowledge_dbuf (v : Byte) (s : State) : (s.acknowledge v).dbuf = s.dbuf := rfl
@[simp] theorem State.acknowledge_rxq (v : Byte) (s : State) : (s.acknowledge v).rxq = s.rxq := rfl
@[simp] theorem State.acknowledge_tokq (v : Byte) (s : State) : (s.acknowledge v).tokq = s.tokq := rfl
@[simp] theorem State.acknowledge_nextId (v : Byte) (s : State) : (s.acknowledge v).nextId = s.nextId := rfl
@[simp] theorem State.acknowledge_txHdr (v : Byte) (s : State) : (s.acknowledge v).txHdr = s.txHdr := rfl
@[simp] theorem State.acknowledge_txStaged (v : Byte) (s : State) : (s.acknowledge v).txStaged = s.txStaged := rfl
@[simp] theorem State.acknowledge_txSnap (v : Byte) (s : State) : (s.acknowledge v).txSnap = s.txSnap := rfl
@[simp] theorem State.acknowledge_txsrc (v : Byte) (s : State) : (s.acknowledge v).txsrc = s.txsrc := rfl
@[simp] theorem State.acknowledge_txframe (v : Byte) (s : State) : (s.acknowledge v).txframe = s.txframe := rfl
@[simp] theorem State.acknowledge_txpos (v : Byte) (s : State) : (s.acknowledge v).txpos = s.txpos := rfl
@[simp] theorem State.acknowledge_txbuf (v : Byte) (s : State) : (s.acknowledge v).txbuf = s.txbuf := rfl
@[simp] theorem State.acknowledge_ctrl (v : Byte) (s : State) : (s.acknowledge v).ctrl = s.ctrl := rfl
@[simp] theorem State.acknowledge_evtPend (v : Byte) (s : State) : (s.acknowledge v).evtPend = s.evtPend &&& ~~~v := rfl
@[simp] theorem State.acknowledge_evtMask (v : Byte) (s : State) : (s.acknowledge v).evtMask = s.evtMask := rfl
@[simp] theorem State.acknowledge_rxSel (v : Byte) (s : State) : (s.acknowledge v).rxSel = s.rxSel := rfl
@[simp] theorem State.acknowledge_errInfo (v : Byte) (s : State) : (s.acknowledge v).errInfo = s.errInfo := rfl
@[simp] theorem State.acknowledge_errCrc (v : Byte) (s : State) : (s.acknowledge v).errCrc = s.errCrc := rfl
@[simp] theorem State.acknowledge_cnt (v : Byte) (s : State) : (s.acknowledge v).cnt = s.cnt := rfl
@[simp] theorem State.acknowledge_params (v : Byte) (s : State) : (s.acknowledge v).params = s.params := rfl
@[simp] theorem State.acknowledge_inbox (v : Byte) (s : State) : (s.acknowledge v).inbox = s.inbox := rfl
@[simp] theorem State.acknowledge_replies (v : Byte) (s : State) : (s.acknowledge v).replies = s.replies := rfl

/-! What a reply does to each field. -/

@[simp] theorem State.reply_hcrc (r : Reply) (s : State) : (s.reply r).hcrc = s.hcrc := rfl
@[simp] theorem State.reply_dstate (r : Reply) (s : State) : (s.reply r).dstate = s.dstate := rfl
@[simp] theorem State.reply_dfmt (r : Reply) (s : State) : (s.reply r).dfmt = s.dfmt := rfl
@[simp] theorem State.reply_did (r : Reply) (s : State) : (s.reply r).did = s.did := rfl
@[simp] theorem State.reply_didx (r : Reply) (s : State) : (s.reply r).didx = s.didx := rfl
@[simp] theorem State.reply_dcrc (r : Reply) (s : State) : (s.reply r).dcrc = s.dcrc := rfl
@[simp] theorem State.reply_dcrcx (r : Reply) (s : State) : (s.reply r).dcrcx = s.dcrcx := rfl
@[simp] theorem State.reply_dbuf (r : Reply) (s : State) : (s.reply r).dbuf = s.dbuf := rfl
@[simp] theorem State.reply_rxq (r : Reply) (s : State) : (s.reply r).rxq = s.rxq := rfl
@[simp] theorem State.reply_tokq (r : Reply) (s : State) : (s.reply r).tokq = s.tokq := rfl
@[simp] theorem State.reply_nextId (r : Reply) (s : State) : (s.reply r).nextId = s.nextId := rfl
@[simp] theorem State.reply_txHdr (r : Reply) (s : State) : (s.reply r).txHdr = s.txHdr := rfl
@[simp] theorem State.reply_txStaged (r : Reply) (s : State) : (s.reply r).txStaged = s.txStaged := rfl
@[simp] theorem State.reply_txSnap (r : Reply) (s : State) : (s.reply r).txSnap = s.txSnap := rfl
@[simp] theorem State.reply_txsrc (r : Reply) (s : State) : (s.reply r).txsrc = s.txsrc := rfl
@[simp] theorem State.reply_txframe (r : Reply) (s : State) : (s.reply r).txframe = s.txframe := rfl
@[simp] theorem State.reply_txpos (r : Reply) (s : State) : (s.reply r).txpos = s.txpos := rfl
@[simp] theorem State.reply_txbuf (r : Reply) (s : State) : (s.reply r).txbuf = s.txbuf := rfl
@[simp] theorem State.reply_ctrl (r : Reply) (s : State) : (s.reply r).ctrl = s.ctrl := rfl
@[simp] theorem State.reply_evtPend (r : Reply) (s : State) : (s.reply r).evtPend = s.evtPend := rfl
@[simp] theorem State.reply_evtMask (r : Reply) (s : State) : (s.reply r).evtMask = s.evtMask := rfl
@[simp] theorem State.reply_rxSel (r : Reply) (s : State) : (s.reply r).rxSel = s.rxSel := rfl
@[simp] theorem State.reply_errInfo (r : Reply) (s : State) : (s.reply r).errInfo = s.errInfo := rfl
@[simp] theorem State.reply_errCrc (r : Reply) (s : State) : (s.reply r).errCrc = s.errCrc := rfl
@[simp] theorem State.reply_cnt (r : Reply) (s : State) : (s.reply r).cnt = s.cnt := rfl
@[simp] theorem State.reply_params (r : Reply) (s : State) : (s.reply r).params = s.params := rfl
@[simp] theorem State.reply_inbox (r : Reply) (s : State) : (s.reply r).inbox = s.inbox := rfl
@[simp] theorem State.reply_replies (r : Reply) (s : State) : (s.reply r).replies = s.replies ++ [r] := rfl

/-! What push(RXQ[c], r) does to each field. -/

@[simp] theorem State.pushRx_hcrc (c : Fin 7) (r : FrameRecord) (s : State) : (s.pushRx c r).hcrc = s.hcrc := rfl
@[simp] theorem State.pushRx_dstate (c : Fin 7) (r : FrameRecord) (s : State) : (s.pushRx c r).dstate = s.dstate := rfl
@[simp] theorem State.pushRx_dfmt (c : Fin 7) (r : FrameRecord) (s : State) : (s.pushRx c r).dfmt = s.dfmt := rfl
@[simp] theorem State.pushRx_did (c : Fin 7) (r : FrameRecord) (s : State) : (s.pushRx c r).did = s.did := rfl
@[simp] theorem State.pushRx_didx (c : Fin 7) (r : FrameRecord) (s : State) : (s.pushRx c r).didx = s.didx := rfl
@[simp] theorem State.pushRx_dcrc (c : Fin 7) (r : FrameRecord) (s : State) : (s.pushRx c r).dcrc = s.dcrc := rfl
@[simp] theorem State.pushRx_dcrcx (c : Fin 7) (r : FrameRecord) (s : State) : (s.pushRx c r).dcrcx = s.dcrcx := rfl
@[simp] theorem State.pushRx_dbuf (c : Fin 7) (r : FrameRecord) (s : State) : (s.pushRx c r).dbuf = s.dbuf := rfl
@[simp] theorem State.pushRx_rxq (c : Fin 7) (r : FrameRecord) (s : State) : (s.pushRx c r).rxq = s.rxq.set c (s.rxq[c] ++ [r]) := rfl
@[simp] theorem State.pushRx_tokq (c : Fin 7) (r : FrameRecord) (s : State) : (s.pushRx c r).tokq = s.tokq := rfl
@[simp] theorem State.pushRx_nextId (c : Fin 7) (r : FrameRecord) (s : State) : (s.pushRx c r).nextId = s.nextId := rfl
@[simp] theorem State.pushRx_txHdr (c : Fin 7) (r : FrameRecord) (s : State) : (s.pushRx c r).txHdr = s.txHdr := rfl
@[simp] theorem State.pushRx_txStaged (c : Fin 7) (r : FrameRecord) (s : State) : (s.pushRx c r).txStaged = s.txStaged := rfl
@[simp] theorem State.pushRx_txSnap (c : Fin 7) (r : FrameRecord) (s : State) : (s.pushRx c r).txSnap = s.txSnap := rfl
@[simp] theorem State.pushRx_txsrc (c : Fin 7) (r : FrameRecord) (s : State) : (s.pushRx c r).txsrc = s.txsrc := rfl
@[simp] theorem State.pushRx_txframe (c : Fin 7) (r : FrameRecord) (s : State) : (s.pushRx c r).txframe = s.txframe := rfl
@[simp] theorem State.pushRx_txpos (c : Fin 7) (r : FrameRecord) (s : State) : (s.pushRx c r).txpos = s.txpos := rfl
@[simp] theorem State.pushRx_txbuf (c : Fin 7) (r : FrameRecord) (s : State) : (s.pushRx c r).txbuf = s.txbuf := rfl
@[simp] theorem State.pushRx_ctrl (c : Fin 7) (r : FrameRecord) (s : State) : (s.pushRx c r).ctrl = s.ctrl := rfl
@[simp] theorem State.pushRx_evtPend (c : Fin 7) (r : FrameRecord) (s : State) : (s.pushRx c r).evtPend = s.evtPend := rfl
@[simp] theorem State.pushRx_evtMask (c : Fin 7) (r : FrameRecord) (s : State) : (s.pushRx c r).evtMask = s.evtMask := rfl
@[simp] theorem State.pushRx_rxSel (c : Fin 7) (r : FrameRecord) (s : State) : (s.pushRx c r).rxSel = s.rxSel := rfl
@[simp] theorem State.pushRx_errInfo (c : Fin 7) (r : FrameRecord) (s : State) : (s.pushRx c r).errInfo = s.errInfo := rfl
@[simp] theorem State.pushRx_errCrc (c : Fin 7) (r : FrameRecord) (s : State) : (s.pushRx c r).errCrc = s.errCrc := rfl
@[simp] theorem State.pushRx_cnt (c : Fin 7) (r : FrameRecord) (s : State) : (s.pushRx c r).cnt = s.cnt := rfl
@[simp] theorem State.pushRx_params (c : Fin 7) (r : FrameRecord) (s : State) : (s.pushRx c r).params = s.params := rfl
@[simp] theorem State.pushRx_inbox (c : Fin 7) (r : FrameRecord) (s : State) : (s.pushRx c r).inbox = s.inbox := rfl
@[simp] theorem State.pushRx_replies (c : Fin 7) (r : FrameRecord) (s : State) : (s.pushRx c r).replies = s.replies := rfl

/-! What pop(RXQ[c]) does to each field. -/

@[simp] theorem State.popRx_hcrc (c : Fin 7) (s : State) : (s.popRx c).hcrc = s.hcrc := rfl
@[simp] theorem State.popRx_dstate (c : Fin 7) (s : State) : (s.popRx c).dstate = s.dstate := rfl
@[simp] theorem State.popRx_dfmt (c : Fin 7) (s : State) : (s.popRx c).dfmt = s.dfmt := rfl
@[simp] theorem State.popRx_did (c : Fin 7) (s : State) : (s.popRx c).did = s.did := rfl
@[simp] theorem State.popRx_didx (c : Fin 7) (s : State) : (s.popRx c).didx = s.didx := rfl
@[simp] theorem State.popRx_dcrc (c : Fin 7) (s : State) : (s.popRx c).dcrc = s.dcrc := rfl
@[simp] theorem State.popRx_dcrcx (c : Fin 7) (s : State) : (s.popRx c).dcrcx = s.dcrcx := rfl
@[simp] theorem State.popRx_dbuf (c : Fin 7) (s : State) : (s.popRx c).dbuf = s.dbuf := rfl
@[simp] theorem State.popRx_rxq (c : Fin 7) (s : State) : (s.popRx c).rxq = s.rxq.set c s.rxq[c].tail := rfl
@[simp] theorem State.popRx_tokq (c : Fin 7) (s : State) : (s.popRx c).tokq = s.tokq := rfl
@[simp] theorem State.popRx_nextId (c : Fin 7) (s : State) : (s.popRx c).nextId = s.nextId := rfl
@[simp] theorem State.popRx_txHdr (c : Fin 7) (s : State) : (s.popRx c).txHdr = s.txHdr := rfl
@[simp] theorem State.popRx_txStaged (c : Fin 7) (s : State) : (s.popRx c).txStaged = s.txStaged := rfl
@[simp] theorem State.popRx_txSnap (c : Fin 7) (s : State) : (s.popRx c).txSnap = s.txSnap := rfl
@[simp] theorem State.popRx_txsrc (c : Fin 7) (s : State) : (s.popRx c).txsrc = s.txsrc := rfl
@[simp] theorem State.popRx_txframe (c : Fin 7) (s : State) : (s.popRx c).txframe = s.txframe := rfl
@[simp] theorem State.popRx_txpos (c : Fin 7) (s : State) : (s.popRx c).txpos = s.txpos := rfl
@[simp] theorem State.popRx_txbuf (c : Fin 7) (s : State) : (s.popRx c).txbuf = s.txbuf := rfl
@[simp] theorem State.popRx_ctrl (c : Fin 7) (s : State) : (s.popRx c).ctrl = s.ctrl := rfl
@[simp] theorem State.popRx_evtPend (c : Fin 7) (s : State) : (s.popRx c).evtPend = s.evtPend := rfl
@[simp] theorem State.popRx_evtMask (c : Fin 7) (s : State) : (s.popRx c).evtMask = s.evtMask := rfl
@[simp] theorem State.popRx_rxSel (c : Fin 7) (s : State) : (s.popRx c).rxSel = s.rxSel := rfl
@[simp] theorem State.popRx_errInfo (c : Fin 7) (s : State) : (s.popRx c).errInfo = s.errInfo := rfl
@[simp] theorem State.popRx_errCrc (c : Fin 7) (s : State) : (s.popRx c).errCrc = s.errCrc := rfl
@[simp] theorem State.popRx_cnt (c : Fin 7) (s : State) : (s.popRx c).cnt = s.cnt := rfl
@[simp] theorem State.popRx_params (c : Fin 7) (s : State) : (s.popRx c).params = s.params := rfl
@[simp] theorem State.popRx_inbox (c : Fin 7) (s : State) : (s.popRx c).inbox = s.inbox := rfl
@[simp] theorem State.popRx_replies (c : Fin 7) (s : State) : (s.popRx c).replies = s.replies := rfl

/-! What Reset leaves in each field (10_state.md R55). -/

@[simp] theorem State.resetWith_hcrc (p : Params) : (State.resetWith p).hcrc = Config.crcPreset := rfl
@[simp] theorem State.resetWith_dstate (p : Params) : (State.resetWith p).dstate = DState.huntSync1 := rfl
@[simp] theorem State.resetWith_dfmt (p : Params) : (State.resetWith p).dfmt = 0 := rfl
@[simp] theorem State.resetWith_did (p : Params) : (State.resetWith p).did = 0 := rfl
@[simp] theorem State.resetWith_didx (p : Params) : (State.resetWith p).didx = 0 := rfl
@[simp] theorem State.resetWith_dcrc (p : Params) : (State.resetWith p).dcrc = 0 := rfl
@[simp] theorem State.resetWith_dcrcx (p : Params) : (State.resetWith p).dcrcx = 0 := rfl
@[simp] theorem State.resetWith_dbuf (p : Params) : (State.resetWith p).dbuf = [] := rfl
@[simp] theorem State.resetWith_rxq (p : Params) : (State.resetWith p).rxq = Vector.replicate 7 [] := rfl
@[simp] theorem State.resetWith_tokq (p : Params) : (State.resetWith p).tokq = [] := rfl
@[simp] theorem State.resetWith_nextId (p : Params) : (State.resetWith p).nextId = 0 := rfl
@[simp] theorem State.resetWith_txHdr (p : Params) : (State.resetWith p).txHdr = ⟨0, 0, 0⟩ := rfl
@[simp] theorem State.resetWith_txStaged (p : Params) : (State.resetWith p).txStaged = false := rfl
@[simp] theorem State.resetWith_txSnap (p : Params) : (State.resetWith p).txSnap = ⟨0, 0, 0, 0, false⟩ := rfl
@[simp] theorem State.resetWith_txsrc (p : Params) : (State.resetWith p).txsrc = TxSrc.none := rfl
@[simp] theorem State.resetWith_txframe (p : Params) : (State.resetWith p).txframe = [] := rfl
@[simp] theorem State.resetWith_txpos (p : Params) : (State.resetWith p).txpos = 0 := rfl
@[simp] theorem State.resetWith_txbuf (p : Params) : (State.resetWith p).txbuf = p.txbufInit := rfl
@[simp] theorem State.resetWith_ctrl (p : Params) : (State.resetWith p).ctrl = Config.ctrlReset := rfl
@[simp] theorem State.resetWith_evtPend (p : Params) : (State.resetWith p).evtPend = 0 := rfl
@[simp] theorem State.resetWith_evtMask (p : Params) : (State.resetWith p).evtMask = 0 := rfl
@[simp] theorem State.resetWith_rxSel (p : Params) : (State.resetWith p).rxSel = 0 := rfl
@[simp] theorem State.resetWith_errInfo (p : Params) : (State.resetWith p).errInfo = 0 := rfl
@[simp] theorem State.resetWith_errCrc (p : Params) : (State.resetWith p).errCrc = 0 := rfl
@[simp] theorem State.resetWith_cnt (p : Params) : (State.resetWith p).cnt = ⟨0, 0, 0, 0, 0, 0, 0, 0⟩ := rfl
@[simp] theorem State.resetWith_params (p : Params) : (State.resetWith p).params = p := rfl
@[simp] theorem State.resetWith_inbox (p : Params) : (State.resetWith p).inbox = [] := rfl
@[simp] theorem State.resetWith_replies (p : Params) : (State.resetWith p).replies = [] := rfl

/-! The value and the state of `takeId`. -/

@[simp] theorem State.takeId_fst (s : State) : s.takeId.1 = s.nextId := rfl
@[simp] theorem State.takeId_snd (s : State) : s.takeId.2 = { s with nextId := s.nextId + 1 } := rfl

end Sys2Proof.Machine
end

