-- ==== Sys2Proof/Laws/Ops.lean ====
section
/-! SUPPORT. One lemma per shared operation: everything it can do, as a record update or as a list of cases. -/

namespace Sys2Proof.Machine

/-! Queues, tokens, delivery. -/

/-- `gen_token`: only TOKQ, EVT_PEND and the counters can change. -/
theorem State.genToken_eq (k : TokenRecord) (s : State) :
    s.genToken k =
      { s with
        tokq := if s.tokq.length < s.params.tokqDepth then s.tokq ++ [k] else s.tokq
        evtPend := if s.tokq.length < s.params.tokqDepth then s.evtPend else s.evtPend ||| Evt.tokOvf.flag
        cnt := if s.tokq.length < s.params.tokqDepth then s.cnt else Evt.tokOvf.count s.cnt } := by
  unfold State.genToken
  split <;> rfl

/-- `deliver` to a full channel. -/
theorem State.deliver_full {r : FrameRecord} {s : State} (h : s.params.rxqDepth ≤ s.rxq[channel r.type].length) :
    s.deliver r = s.raise .rxOvf := by
  unfold State.deliver
  rw [if_neg (by omega)]

/-- `deliver` to a channel with room. -/
theorem State.deliver_room {r : FrameRecord} {s : State} (h : s.rxq[channel r.type].length < s.params.rxqDepth) :
    s.deliver r =
      if ackedType r.type = true ∧ s.autoAck = true then
        ((s.pushRx (channel r.type) r).raise .rxFrame).genToken ⟨.ack, r.id, 0⟩
      else (s.pushRx (channel r.type) r).raise .rxFrame := by
  unfold State.deliver
  rw [if_pos h]
  rfl

/-- `deliver`: what can change, and the frame goes to the tail of its channel or nowhere. -/
theorem State.deliver_cases (r : FrameRecord) (s : State) :
    ∃ q e c, s.deliver r = { s with rxq := (s.deliver r).rxq, tokq := q, evtPend := e, cnt := c } ∧
      ((s.rxq[channel r.type].length < s.params.rxqDepth ∧
          (s.deliver r).rxq = s.rxq.set (channel r.type) (s.rxq[channel r.type] ++ [r])) ∨
        (s.params.rxqDepth ≤ s.rxq[channel r.type].length ∧ (s.deliver r).rxq = s.rxq)) ∧
      (q = s.tokq ∨ (s.tokq.length < s.params.tokqDepth ∧ q = s.tokq ++ [⟨.ack, r.id, 0⟩])) := by
  rcases lt_or_ge s.rxq[channel r.type].length s.params.rxqDepth with h | h
  · rw [State.deliver_room h]
    split
    · rw [State.genToken_eq]
      refine ⟨_, _, _, rfl, .inl ⟨h, rfl⟩, ?_⟩
      by_cases ht : s.tokq.length < s.params.tokqDepth <;> simp [ht]
    · exact ⟨_, _, _, rfl, .inl ⟨h, rfl⟩, .inl rfl⟩
  · rw [State.deliver_full h]
    exact ⟨_, _, _, rfl, .inr ⟨h, rfl⟩, .inl rfl⟩

/-- `integrity_error`: what can change. -/
theorem State.integrityError_cases (t : BitVec 4) (len : BitVec 12) (s : State) :
    ∃ i x q e c, s.integrityError t len = { s with errInfo := i, errCrc := x, tokq := q, evtPend := e, cnt := c } ∧
      (q = s.tokq ∨
        (s.tokq.length < s.params.tokqDepth ∧ q = s.tokq ++ [⟨.nack, s.did, Config.nackIntegrity⟩])) := by
  simp only [State.integrityError, State.genToken_eq]
  split
  · refine ⟨_, _, _, _, _, rfl, ?_⟩
    by_cases ht : s.tokq.length < s.params.tokqDepth <;> simp [ht]
  · exact ⟨_, _, _, _, _, rfl, .inl rfl⟩

/-- EMIT: what can change; a queue grows only by a valid frame, at the tail of its channel. -/
theorem State.emitFrame_cases (t : BitVec 4) (len : BitVec 12) (s : State) :
    ∃ i x q r e c,
      s.emitFrame t len =
        { s with dstate := .huntSync1, errInfo := i, errCrc := x, tokq := q, rxq := r, evtPend := e, cnt := c } ∧
      ((s.dcrc = s.dcrcx ∧ s.rxq[channel t].length < s.params.rxqDepth ∧
          r = s.rxq.set (channel t) (s.rxq[channel t] ++ [s.received t len])) ∨ r = s.rxq) ∧
      (q = s.tokq ∨ ∃ k, s.tokq.length < s.params.tokqDepth ∧ q = s.tokq ++ [k] ∧ (k.kind = .ack → k.reason = 0)) := by
  by_cases h : s.dcrc = s.dcrcx
  · obtain ⟨q, e, c, heq, hr, hq⟩ := State.deliver_cases (s.received t len) s
    refine ⟨s.errInfo, s.errCrc, q, (s.deliver (s.received t len)).rxq, e, c, ?_, ?_, ?_⟩
    · unfold State.emitFrame
      rw [if_pos h]
      exact congrArg (fun u : State => { u with dstate := .huntSync1 }) heq
    · rcases hr with ⟨h1, h2⟩ | ⟨-, h2⟩
      · exact .inl ⟨h, h1, h2⟩
      · exact .inr h2
    · rcases hq with hq | ⟨h1, h2⟩
      · exact .inl hq
      · exact .inr ⟨_, h1, h2, fun _ => rfl⟩
  · obtain ⟨i, x, q, e, c, heq, hq⟩ := State.integrityError_cases t len s
    refine ⟨i, x, q, s.rxq, e, c, ?_, .inr rfl, ?_⟩
    · unfold State.emitFrame
      rw [if_neg h]
      exact congrArg (fun u : State => { u with dstate := .huntSync1 }) heq
    · rcases hq with hq | ⟨h1, h2⟩
      · exact .inl hq
      · exact .inr ⟨_, h1, h2, fun hk => by cases hk⟩

/-- The instruction of a format word is EMIT of that type and length. -/
theorem exec_decodeFormat (w : Half) (s : State) : exec (decodeFormat w) s = .next (s.emitFrame (fmtType w) (fmtLen w)) := by
  unfold decodeFormat
  generalize fmtLen w = n
  generalize fmtType w = t
  have ht : t.toNat < 16 := t.isLt
  have hb : t = BitVec.ofNat 4 t.toNat := by simp
  rw [hb]
  interval_cases t.toNat <;> rfl

/-! The transmitter. -/

/-- What a pull selects: the frame in transmission, else the head of TOKQ, else the staged frame, else nothing. -/
theorem State.selectFrame_cases (s : State) :
    (s.txsrc ≠ .none ∧ s.selectFrame = some s) ∨
    (∃ k rest, s.txsrc = .none ∧ s.tokq = k :: rest ∧ s.selectFrame = some (s.startToken k rest)) ∨
    (s.txsrc = .none ∧ s.tokq = [] ∧ s.txStaged = true ∧ s.selectFrame = some s.startHost) ∨
    (s.txsrc = .none ∧ s.tokq = [] ∧ s.txStaged = false ∧ s.selectFrame = none) := by
  unfold State.selectFrame
  cases h : s.txsrc <;> cases hq : s.tokq <;> cases hs : s.txStaged <;> simp

/-- What a pull sends: nothing, the last byte of the frame, or a byte before the last. -/
theorem State.sendByte_cases (s : State) :
    (s.txframe.length ≤ s.txpos.toNat ∧ s.sendByte = s.reply .idle) ∨
    (∃ b, s.txpos.toNat + 1 = s.txframe.length ∧ s.txframe[s.txpos.toNat]? = some b ∧
      s.sendByte = ({ s with txpos := s.txpos + 1 } : State).finishFrame.reply (.byte b)) ∨
    (∃ b, s.txpos.toNat + 1 < s.txframe.length ∧ s.txframe[s.txpos.toNat]? = some b ∧
      s.sendByte = ({ s with txpos := s.txpos + 1 } : State).reply (.byte b)) := by
  unfold State.sendByte
  have hd : s.txframe[s.txpos.toNat]? = (s.txframe.drop s.txpos.toNat).head? := by simp
  have hl : (s.txframe.drop s.txpos.toNat).length = s.txframe.length - s.txpos.toNat := by simp
  rcases h : s.txframe.drop s.txpos.toNat with _ | ⟨b, _ | ⟨b', l⟩⟩ <;> rw [h] at hd hl <;>
    simp only [List.length_nil, List.length_cons] at hl
  · exact .inl ⟨by omega, rfl⟩
  · exact .inr (.inl ⟨b, by omega, hd, rfl⟩)
  · exact .inr (.inr ⟨b, by omega, hd, rfl⟩)

@[simp] theorem length_frameBytes (fw : Half) (id : Byte) (p : List Byte) (c : Half) :
    (frameBytes fw id p c).length = 7 + p.length := by
  simp [frameBytes]
  omega

/-! The host port. -/

/-- The bytes of the TXBUF window. -/
theorem target_txbuf {i : Nat} (h : i < Config.maxPayload) : target (BitVec.ofNat 16 (0x4000 + 4 * i)) = .txbuf i := by
  have h' : i < 4095 := h
  have ha : (BitVec.ofNat 16 (0x4000 + 4 * i)).extractLsb' 0 2 = 0 := by
    apply BitVec.eq_of_toNat_eq
    simp only [BitVec.extractLsb'_toNat, BitVec.toNat_ofNat, Nat.shiftRight_zero]
    change _ = 0
    omega
  have hn : (BitVec.ofNat 16 (0x4000 + 4 * i)).toNat = 0x4000 + 4 * i := by
    rw [BitVec.toNat_ofNat, Nat.mod_eq_of_lt (by omega)]
  unfold target
  rw [if_neg (by simp [ha]), if_pos (by omega), hn]
  congr 1
  omega

/-- The bytes of the RX window. -/
theorem target_rxwin {i : Nat} (h : i < Config.maxPayload) : target (BitVec.ofNat 16 (0x8000 + 4 * i)) = .rxwin i := by
  have h' : i < 4095 := h
  have ha : (BitVec.ofNat 16 (0x8000 + 4 * i)).extractLsb' 0 2 = 0 := by
    apply BitVec.eq_of_toNat_eq
    simp only [BitVec.extractLsb'_toNat, BitVec.toNat_ofNat, Nat.shiftRight_zero]
    change _ = 0
    omega
  have hn : (BitVec.ofNat 16 (0x8000 + 4 * i)).toNat = 0x8000 + 4 * i := by
    rw [BitVec.toNat_ofNat, Nat.mod_eq_of_lt (by omega)]
  unfold target
  rw [if_neg (by simp [ha]), if_neg (by omega), if_pos (by omega), hn]
  congr 1
  omega

/-- A defined command word is its command's meaning. -/
theorem execute_of_ok {v : Word} {i : Instr} (h : decodeCommand v = .ok i) (s : State) : execute v s = exec i s := by
  unfold execute
  rw [h]
  unfold decodeCommand at h
  split at h <;> cases h <;> rfl

/-- A reserved command word raises REJECT. -/
theorem execute_of_error {v : Word} {e : DecodeError} (h : decodeCommand v = .error e) (s : State) :
    execute v s = .next (s.raise .reject) := by
  unfold execute
  rw [h]

/-- What a host write does, by what its offset names. -/
theorem execHostWrite_cases (off : Half) (v : Word) (s : State) :
    execHostWrite off v s = .next (s.raise .reject) ∨
    (∃ i, target off = .txbuf i ∧ s.txStaged = false ∧
      execHostWrite off v s = .next { s with txbuf := s.txbuf.write i (v.extractLsb' 0 8) }) ∨
    ∃ r, target off = .reg r ∧ execHostWrite off v s = writeReg r v s := by
  unfold execHostWrite
  cases target off with
  | misaligned => exact .inl rfl
  | unmapped => exact .inl rfl
  | rxwin i => exact .inl rfl
  | reg r => exact .inr (.inr ⟨r, rfl, rfl⟩)
  | txbuf i =>
    cases hs : s.txStaged
    · exact .inr (.inl ⟨i, rfl, rfl, by simp⟩)
    · exact .inl (by simp)

/-! Events in a row. -/

@[simp] theorem perform_nil (s : State) : perform [] s = .next s := rfl

theorem perform_cons_next {e : Stimulus} {es : List Stimulus} {s t : State} (h : exec e.instr s = .next t) :
    perform (e :: es) s = perform es t := by
  simp only [perform, h]

/-- A run over a concatenation is the runs one after the other. -/
theorem perform_append {as bs : List Stimulus} {s t : State} (h : perform as s = .next t) :
    perform (as ++ bs) s = perform bs t := by
  induction as generalizing s with
  | nil => cases h; rfl
  | cons e es ih =>
    simp only [perform, List.cons_append] at h ⊢
    split at h <;> simp_all

/-- RX bytes in a row are one `rxByte` after the other. -/
theorem perform_rx (bs : List Byte) (s : State) : perform (asmRx bs) s = .next (bs.foldl (fun t b => t.rxByte b) s) := by
  induction bs generalizing s with
  | nil => rfl
  | cons b bs ih => exact ih (s.rxByte b)

end Sys2Proof.Machine
end

