-- ==== Sys2Proof/Laws/PerInstr.lean ====
section
/-! SUPPORT. Per instruction: decoding its encoding, whatever follows it, gives it back. -/

namespace Sys2Proof.Laws

/-- The round trip of one instruction. -/
def RoundTrip.Statement (i : Instr) : Prop :=
  i.wellFormed = true → ∀ rest, decode (encode i).1 ((encode i).2 ++ rest) = .ok (i, rest)

theorem RoundTrip.nop : RoundTrip.Statement .nop :=
  fun _ rest => decode_command _ _ _ rest rfl

theorem RoundTrip.crcInit : RoundTrip.Statement .crcInit :=
  fun _ rest => decode_command _ _ _ rest rfl

theorem RoundTrip.crcByte (b : Byte) : RoundTrip.Statement (.crcByte b) :=
  fun _ rest => decode_command _ _ _ rest (by simp [decodeCommand])

theorem RoundTrip.txSend (autoId : Bool) : RoundTrip.Statement (.txSend autoId) :=
  fun _ rest => decode_command _ _ _ rest (by cases autoId <;> rfl)

theorem RoundTrip.txCancel : RoundTrip.Statement .txCancel :=
  fun _ rest => decode_command _ _ _ rest rfl

theorem RoundTrip.rxPop (c : Byte) : RoundTrip.Statement (.rxPop c) :=
  fun _ rest => decode_command _ _ _ rest (by simp [decodeCommand])

theorem RoundTrip.rxqClear : RoundTrip.Statement .rxqClear :=
  fun _ rest => decode_command _ _ _ rest rfl

theorem RoundTrip.decAbort : RoundTrip.Statement .decAbort :=
  fun _ rest => decode_command _ _ _ rest rfl

theorem RoundTrip.tokAck (echo : Byte) : RoundTrip.Statement (.tokAck echo) :=
  fun _ rest => decode_command _ _ _ rest (by simp [decodeCommand])

theorem RoundTrip.tokNack (echo : Byte) (reason : Byte) : RoundTrip.Statement (.tokNack echo reason) :=
  fun _ rest => decode_command _ _ _ rest (by simp [decodeCommand, loByte_setWidth])

theorem RoundTrip.tokClear : RoundTrip.Statement .tokClear :=
  fun _ rest => decode_command _ _ _ rest rfl

theorem RoundTrip.cntClear : RoundTrip.Statement .cntClear :=
  fun _ rest => decode_command _ _ _ rest rfl

theorem RoundTrip.frameUnassigned0 (len : BitVec 12) : RoundTrip.Statement (.frameUnassigned0 len) :=
  fun _ rest => (decode_format _ len rest).trans
    (by simp [decodeFormat])

theorem RoundTrip.frameConfiguration (len : BitVec 12) : RoundTrip.Statement (.frameConfiguration len) :=
  fun _ rest => (decode_format _ len rest).trans
    (by simp [decodeFormat, Config.typeConfiguration])

theorem RoundTrip.frameCommand (len : BitVec 12) : RoundTrip.Statement (.frameCommand len) :=
  fun _ rest => (decode_format _ len rest).trans
    (by simp [decodeFormat, Config.typeCommand])

theorem RoundTrip.frameData (len : BitVec 12) : RoundTrip.Statement (.frameData len) :=
  fun _ rest => (decode_format _ len rest).trans
    (by simp [decodeFormat, Config.typeData])

theorem RoundTrip.frameUnassigned4 (len : BitVec 12) : RoundTrip.Statement (.frameUnassigned4 len) :=
  fun _ rest => (decode_format _ len rest).trans
    (by simp [decodeFormat])

theorem RoundTrip.frameUnassigned5 (len : BitVec 12) : RoundTrip.Statement (.frameUnassigned5 len) :=
  fun _ rest => (decode_format _ len rest).trans
    (by simp [decodeFormat])

theorem RoundTrip.frameUnassigned6 (len : BitVec 12) : RoundTrip.Statement (.frameUnassigned6 len) :=
  fun _ rest => (decode_format _ len rest).trans
    (by simp [decodeFormat])

theorem RoundTrip.frameUnassigned7 (len : BitVec 12) : RoundTrip.Statement (.frameUnassigned7 len) :=
  fun _ rest => (decode_format _ len rest).trans
    (by simp [decodeFormat])

theorem RoundTrip.frameAck (len : BitVec 12) : RoundTrip.Statement (.frameAck len) :=
  fun _ rest => (decode_format _ len rest).trans
    (by simp [decodeFormat, Config.typeAck])

theorem RoundTrip.frameNack (len : BitVec 12) : RoundTrip.Statement (.frameNack len) :=
  fun _ rest => (decode_format _ len rest).trans
    (by simp [decodeFormat, Config.typeNack])

theorem RoundTrip.frameError (len : BitVec 12) : RoundTrip.Statement (.frameError len) :=
  fun _ rest => (decode_format _ len rest).trans
    (by simp [decodeFormat, Config.typeError])

theorem RoundTrip.frameUnassignedB (len : BitVec 12) : RoundTrip.Statement (.frameUnassignedB len) :=
  fun _ rest => (decode_format _ len rest).trans
    (by simp [decodeFormat])

theorem RoundTrip.frameUnassignedC (len : BitVec 12) : RoundTrip.Statement (.frameUnassignedC len) :=
  fun _ rest => (decode_format _ len rest).trans
    (by simp [decodeFormat])

theorem RoundTrip.frameUnassignedD (len : BitVec 12) : RoundTrip.Statement (.frameUnassignedD len) :=
  fun _ rest => (decode_format _ len rest).trans
    (by simp [decodeFormat])

theorem RoundTrip.frameUnassignedE (len : BitVec 12) : RoundTrip.Statement (.frameUnassignedE len) :=
  fun _ rest => (decode_format _ len rest).trans
    (by simp [decodeFormat])

theorem RoundTrip.frameUnassignedF (len : BitVec 12) : RoundTrip.Statement (.frameUnassignedF len) :=
  fun _ rest => (decode_format _ len rest).trans
    (by simp [decodeFormat])

theorem RoundTrip.fnSetBaudRate : RoundTrip.Statement .fnSetBaudRate :=
  fun _ _ => rfl

theorem RoundTrip.fnSetAckTimeout : RoundTrip.Statement .fnSetAckTimeout :=
  fun _ _ => rfl

theorem RoundTrip.fnTransmitToken : RoundTrip.Statement .fnTransmitToken :=
  fun _ _ => rfl

theorem RoundTrip.fnQueryFile : RoundTrip.Statement .fnQueryFile :=
  fun _ _ => rfl

theorem RoundTrip.fnQueryFileCrc : RoundTrip.Statement .fnQueryFileCrc :=
  fun _ _ => rfl

theorem RoundTrip.fnReceiveFile : RoundTrip.Statement .fnReceiveFile :=
  fun _ _ => rfl

theorem RoundTrip.fnTransmitFile : RoundTrip.Statement .fnTransmitFile :=
  fun _ _ => rfl

theorem RoundTrip.rxByte (b : Byte) : RoundTrip.Statement (.rxByte b) :=
  fun _ _ => rfl

theorem RoundTrip.txPull : RoundTrip.Statement .txPull :=
  fun _ _ => rfl

theorem RoundTrip.hostRead (off : Half) : RoundTrip.Statement (.hostRead off) :=
  fun _ rest => by simp [encode, decode]

theorem RoundTrip.hostWrite (off : Half) (v : Word) : RoundTrip.Statement (.hostWrite off v) := by
  intro h rest
  have hw : decodeWrite off v = .hostWrite off v := by
    unfold decodeWrite
    split_ifs with ho
    · rw [decodeCommand_reserved (v := v) (by simpa [Instr.wellFormed, ho, cmdOp] using h)]
    · rfl
  simp [encode, wordBytes, decode, hw]

theorem RoundTrip.reset : RoundTrip.Statement .reset :=
  fun _ _ => rfl

end Sys2Proof.Laws
end

