-- ==== Sys2Proof/Laws/Stream.lean ====
section
/-! SUPPORT. Several events in a row: a payload on the RX wire, noise on the RX wire, the rest of a frame pulled. -/

namespace Sys2Proof.Machine

/-- The bytes of a payload that completes it: all are buffered and folded into DCRC, and the CRC comes next. -/
theorem State.rxByte_payload {p : List Byte} (hp : p ≠ []) (s : State) (hd : s.dstate = .readPayload)
    (hn : s.didx.toNat + p.length = (fmtLen s.dfmt).toNat) :
    p.foldl (fun t b => t.rxByte b) s =
      { s with
        dbuf := s.dbuf.writeAll s.didx.toNat p, dcrc := crcFrom s.dcrc p
        didx := fmtLen s.dfmt, dstate := .readCrcHi } := by
  induction p generalizing s with
  | nil => exact absurd rfl hp
  | cons b p ih =>
    have hlt : (fmtLen s.dfmt).toNat < 4096 := (fmtLen s.dfmt).isLt
    have h1 : (s.didx + 1).toNat = s.didx.toNat + 1 := by
      simp only [List.length_cons] at hn
      rw [BitVec.toNat_add]
      simp
      omega
    have hstep : s.rxByte b = s.rxPayload b := by
      unfold State.rxByte
      rw [hd]
    rw [List.foldl_cons, hstep]
    cases p with
    | nil =>
      have hl : s.didx + 1 = fmtLen s.dfmt := BitVec.eq_of_toNat_eq (by simp only [List.length_singleton] at hn; omega)
      unfold State.rxPayload
      rw [if_pos hl, hl]
      rfl
    | cons b' p =>
      have hl : s.didx + 1 ≠ fmtLen s.dfmt := fun h => by
        rw [h] at h1
        simp only [List.length_cons] at hn
        omega
      unfold State.rxPayload
      rw [if_neg hl, ih (by simp) _ rfl (by simp only [h1, List.length_cons] at hn ⊢; omega)]
      simp only [h1]
      rfl

/-- Bytes that fill a buffer from its end on extend the slice by them. -/
theorem Mem.slice_writeAll {m : Mem} (hm : m.wf) (p : List Byte) (n : Nat) (h : n + p.length ≤ Config.maxPayload) :
    (m.writeAll n p).wf ∧ (m.writeAll n p).slice (n + p.length) = m.slice n ++ p := by
  induction p generalizing m n with
  | nil => exact ⟨hm, by simp [Mem.writeAll]⟩
  | cons b p ih =>
    have hn : n < Config.maxPayload := by simp only [List.length_cons] at h; omega
    have := ih (Mem.wf_write hm n b) (n + 1) (by simp only [List.length_cons] at h; omega)
    rw [Mem.slice_write hm hn] at this
    simpa [Mem.writeAll, Nat.add_assoc, Nat.add_comm] using this

/-- What a hunting decoder's state is after one more byte that completes no sync. -/
theorem State.rxByte_hunting {s : State} {b : Byte} (h : s.dstate.hunting) (hb : s.dstate = .huntSync2 → b ≠ Config.sync2) :
    s.rxByte b = { s with dstate := if b = Config.sync1 then .huntSync2 else .huntSync1 } := by
  cases s
  simp only at h hb ⊢
  rcases h with rfl | rfl
  · by_cases h1 : b = Config.sync1 <;> simp [State.rxByte, State.rxHunt1, h1]
  · have := hb rfl
    by_cases h1 : b = Config.sync1 <;> simp [State.rxByte, State.rxHunt2, h1, this]
    decide

/-- A pull with a frame in transmission sends its next byte. -/
theorem execTxPull_of_sending {s : State} (h : s.txsrc ≠ .none) : execTxPull s = .next s.sendByte := by
  unfold execTxPull State.selectFrame
  cases hs : s.txsrc
  · exact absurd hs h
  · rfl
  · rfl

/-- `n` pulls within a frame, none of them the last, send its next `n` bytes. -/
theorem perform_pulls_within (n : Nat) (s : State) (h : s.txsrc ≠ .none) (hn : s.txpos.toNat + n < s.txframe.length)
    (hl : s.txframe.length ≤ 8191) :
    perform (asmPull n) s =
      .next { s with
        txpos := s.txpos + BitVec.ofNat 13 n
        replies := s.replies ++ ((s.txframe.drop s.txpos.toNat).take n).map .byte } := by
  induction n generalizing s with
  | zero => simp [asmPull]
  | succ n ih =>
    have hb : s.sendByte =
        ({ s with txpos := s.txpos + 1 } : State).reply (.byte (s.txframe[s.txpos.toNat]'(by omega))) := by
      rcases s.sendByte_cases with ⟨h1, -⟩ | ⟨b, h1, -, -⟩ | ⟨b, h1, h2, h3⟩
      · omega
      · omega
      · rw [h3]
        rw [List.getElem?_eq_getElem (by omega)] at h2
        cases h2
        rfl
    have hp : (s.txpos + 1).toNat = s.txpos.toNat + 1 := by
      rw [BitVec.toNat_add]
      simp
      omega
    rw [show asmPull (n + 1) = .txPull :: asmPull n from List.replicate_succ,
      perform_cons_next (e := .txPull) (t := s.sendByte) (execTxPull_of_sending h), hb]
    refine (ih (({ s with txpos := s.txpos + 1 } : State).reply (.byte (s.txframe[s.txpos.toNat]'(by omega)))) h (by
      change (s.txpos + 1).toNat + n < s.txframe.length
      omega) hl).trans ?_
    have ht : (s.txframe.drop s.txpos.toNat).take (n + 1) =
        s.txframe[s.txpos.toNat]'(by omega) :: (s.txframe.drop (s.txpos.toNat + 1)).take n := by
      rw [List.drop_eq_getElem_cons (show s.txpos.toNat < s.txframe.length by omega)]
      rfl
    have ha : s.txpos + 1 + BitVec.ofNat 13 n = s.txpos + BitVec.ofNat 13 (n + 1) := by
      rw [BitVec.add_assoc, Nat.add_comm n 1, BitVec.ofNat_add]
      rfl
    simp only [State.reply, hp, ht, ha, List.map_cons, List.append_assoc, List.singleton_append]

end Sys2Proof.Machine
end

