-- ==== Sys2Proof/Tests/Slice0.lean ====
section
/-! SUPPORT. Tests: decoding of words written out from 30_encoding.md, one-step vectors of 95_test_vectors.md, and a witness
for the hypotheses of every statement that has some. -/

namespace Sys2Proof.Tests

open Sys2Proof Sys2Proof.Machine

/-- The state an instruction leads to. -/
def after (i : Instr) (s : State) : Option State :=
  match exec i s with
  | .next t => some t
  | _ => none

/-- After reset, with queues of capacity 1. -/
def small : State := State.resetWith ⟨1, 1, []⟩

/-- A frame of no payload staged: DATA, id 7 (V-E7). -/
def staged : State := { small with txStaged := true, txSnap := ⟨3, 7, 0, 0, false⟩, txHdr := ⟨3, 7, 0⟩ }

/-- The same with an automatic id. -/
def stagedAuto : State := { staged with txSnap := ⟨3, 7, 0, 0, true⟩ }

/-- The same frame in transmission, `n` bytes sent. -/
def sending (n : BitVec 13) : State :=
  { staged with txsrc := .host, txframe := [0xEB, 0x90, 0x30, 0x00, 0x07, 0x00, 0x00], txpos := n }

/-- An ACK token in transmission, `n` bytes sent (V-X9). -/
def sendingToken (n : BitVec 13) : State :=
  { small with txsrc := .token, txframe := [0xEB, 0x90, 0x80, 0x01, 0x00, 0x42, 0x68, 0x86], txpos := n }

/-- One ACK token queued. -/
def queued : State := { small with tokq := [⟨.ack, 0x42, 0⟩] }

/-- The record of the frame of V-S3 ("hello"). -/
def hello : FrameRecord := ⟨3, 0x42, 5, [0x68, 0x65, 0x6C, 0x6C, 0x6F], 0xC362⟩

/-- The record in channel 2, RX_SEL = 2. -/
def holding : State := { small with rxq := small.rxq.set 2 [hello], rxSel := 2 }

/-- The decoder at the last CRC byte of "hello", its CRC `c` computed and its high CRC byte received. -/
def lastByte (c : Half) : State :=
  { small with
    dstate := .readCrcLo, dfmt := 0x3005, did := 0x42, didx := 5, dcrc := c, dcrcx := 0xC300
    dbuf := [(0, 0x68), (1, 0x65), (2, 0x6C), (3, 0x6C), (4, 0x6F)] }

/-- The decoder holding the complete frame. -/
def complete : State := { lastByte 0xC362 with dcrcx := 0xC362, dstate := .emit }

/-- A decoder that has just found sync. -/
def started : State := { small with dstate := .readFormatHi }

/-- A decoder before payload byte 0 of two, that byte waiting. -/
def waiting : State := { small with dstate := .readPayload, dfmt := 0x3002, inbox := [.rxByte 0x68] }

/-- A decoder before the last byte of the longest payload. -/
def lastPayload : State := { small with dstate := .readPayload, dfmt := 0x3FFF, didx := 4094 }

/-- TX_HDR holds `h`, nothing is staged. -/
def header (h : TxHdr) : State := { small with txHdr := h }

/-- The complete frame with AUTO_ACK_EN = 0. -/
def completeNoAck : State := { complete with ctrl := 2 }

/-- The complete frame with its CRC wrong, CTRL = `c`. -/
def corrupted (c : BitVec 2) : State := { complete with dcrc := 0x6933, ctrl := c }

/-- The complete frame with TOKQ full. -/
def completeTokFull : State := { complete with tokq := queued.tokq }

/-- The complete frame with channel 2 full. -/
def completeRxFull : State := { complete with rxq := holding.rxq }

/-! Well-formedness: the one check, and a term it refuses. -/

theorem test_wf_refuses_command_write : (Instr.hostWrite 0x010 0x00000001).wellFormed = false := by decide
theorem test_wf_accepts_reserved_write : (Instr.hostWrite 0x010 0x00000003).wellFormed = true := by decide
theorem test_wf_accepts_other_write : (Instr.hostWrite 0x018 0x00000001).wellFormed = true := by decide

/-! Decoding, one word per row, written out from 30_encoding.md R101, R107, R108, R112, R120, R121. -/

theorem test_decode_nop : decode .command [0x00, 0xFF, 0xFF, 0xFF] = .ok (.nop, []) := by decide
theorem test_decode_crc_init : decode .command [0x01, 0, 0, 0] = .ok (.crcInit, []) := by decide
theorem test_decode_crc_byte : decode .command [0x02, 0x31, 0, 0] = .ok (.crcByte 0x31, []) := by decide
theorem test_decode_tx_send : decode .command [0x10, 0x01, 0, 0] = .ok (.txSend true, []) := by decide
theorem test_decode_tx_send_fixed : decode .command [0x10, 0xFE, 0, 0] = .ok (.txSend false, []) := by decide
theorem test_decode_tx_cancel : decode .command [0x11, 0, 0, 0] = .ok (.txCancel, []) := by decide
theorem test_decode_rx_pop : decode .command [0x20, 0x02, 0, 0] = .ok (.rxPop 2, []) := by decide
theorem test_decode_rxq_clear : decode .command [0x21, 0, 0, 0] = .ok (.rxqClear, []) := by decide
theorem test_decode_dec_abort : decode .command [0x22, 0, 0, 0] = .ok (.decAbort, []) := by decide
theorem test_decode_tok_ack : decode .command [0x30, 0x42, 0, 0] = .ok (.tokAck 0x42, []) := by decide
/-- V-X9: `WR CMD, 0x01FF4231`. -/
theorem test_decode_tok_nack : decode .command [0x31, 0x42, 0xFF, 0x01] = .ok (.tokNack 0x42 0xFF, []) := by decide
theorem test_decode_tok_clear : decode .command [0x32, 0, 0, 0] = .ok (.tokClear, []) := by decide
theorem test_decode_cnt_clear : decode .command [0x40, 0, 0, 0] = .ok (.cntClear, []) := by decide
/-- V-H5: 0x03 is reserved. -/
theorem test_decode_reserved : decode .command [0x03, 0, 0, 0] = .error (.reservedOpcode 0x03) := by decide
theorem test_decode_truncated : decode .command [0x01, 0, 0] = .error .truncated := by decide
theorem test_decode_frame_0 : decode .format [0x00, 0x01] = .ok (.frameUnassigned0 1, []) := by decide
theorem test_decode_frame_configuration : decode .format [0x10, 0x05] = .ok (.frameConfiguration 5, []) := by decide
theorem test_decode_frame_command : decode .format [0x20, 0x01] = .ok (.frameCommand 1, []) := by decide
theorem test_decode_frame_data : decode .format [0x3F, 0xFF] = .ok (.frameData 0xFFF, []) := by decide
theorem test_decode_frame_4 : decode .format [0x41, 0x23] = .ok (.frameUnassigned4 0x123, []) := by decide
theorem test_decode_frame_5 : decode .format [0x50, 0x01] = .ok (.frameUnassigned5 1, []) := by decide
theorem test_decode_frame_6 : decode .format [0x68, 0x00] = .ok (.frameUnassigned6 0x800, []) := by decide
theorem test_decode_frame_7 : decode .format [0x70, 0x80] = .ok (.frameUnassigned7 0x080, []) := by decide
theorem test_decode_frame_ack : decode .format [0x80, 0x01] = .ok (.frameAck 1, []) := by decide
theorem test_decode_frame_nack : decode .format [0x90, 0x02] = .ok (.frameNack 2, []) := by decide
theorem test_decode_frame_error : decode .format [0xA0, 0x01] = .ok (.frameError 1, []) := by decide
theorem test_decode_frame_b : decode .format [0xB0, 0x10] = .ok (.frameUnassignedB 0x010, []) := by decide
theorem test_decode_frame_c : decode .format [0xC1, 0x00] = .ok (.frameUnassignedC 0x100, []) := by decide
theorem test_decode_frame_d : decode .format [0xD0, 0x00] = .ok (.frameUnassignedD 0, []) := by decide
theorem test_decode_frame_e : decode .format [0xE0, 0x7F] = .ok (.frameUnassignedE 0x07F, []) := by decide
theorem test_decode_frame_f : decode .format [0xF0, 0x00] = .ok (.frameUnassignedF 0, []) := by decide
theorem test_decode_fn_set_baud_rate : decode (.function 1) [0x01] = .ok (.fnSetBaudRate, []) := by decide
theorem test_decode_fn_set_ack_timeout : decode (.function 1) [0x02] = .ok (.fnSetAckTimeout, []) := by decide
theorem test_decode_fn_transmit_token : decode (.function 1) [0x03] = .ok (.fnTransmitToken, []) := by decide
theorem test_decode_fn_query_file : decode (.function 2) [0x01] = .ok (.fnQueryFile, []) := by decide
theorem test_decode_fn_query_file_crc : decode (.function 2) [0x02] = .ok (.fnQueryFileCrc, []) := by decide
theorem test_decode_fn_receive_file : decode (.function 2) [0x03] = .ok (.fnReceiveFile, []) := by decide
theorem test_decode_fn_transmit_file : decode (.function 2) [0x04] = .ok (.fnTransmitFile, []) := by decide
theorem test_decode_fn_unassigned : decode (.function 1) [0x04] = .error (.unassignedFunction 1 0x04) := by decide
theorem test_decode_rx_byte : decode .rxByte [0xEB] = .ok (.rxByte 0xEB, []) := by decide
theorem test_decode_tx_pull : decode .txPull [] = .ok (.txPull, []) := by decide
theorem test_decode_host_read : decode .hostRead [0x14, 0x00] = .ok (.hostRead 0x0014, []) := by decide
theorem test_decode_host_write :
    decode .hostWrite [0x18, 0x00, 0x03, 0x42, 0x05, 0x00] = .ok (.hostWrite 0x0018 0x00054203, []) := by decide
theorem test_decode_host_write_command :
    decode .hostWrite [0x10, 0x00, 0x02, 0x31, 0x00, 0x00] = .ok (.crcByte 0x31, []) := by decide
theorem test_decode_reset : decode .reset [] = .ok (.reset, []) := by decide

/-! CRC (V-C2, V-C3, V-C5). -/

theorem test_crc_table_entry : crcTable 0x26 = 0x44A4 := by decide
theorem test_crc_update_ones : crcUpdate 0xFFFF 0x00 = 0xE1F0 := by decide
theorem test_crc_update_mixed : crcUpdate 0x1234 0x56 = 0x3C40 := by decide
theorem test_crc_of_42_01 : crcOf [0x42, 0x01] = 0x7B8F := by decide
theorem test_crc_of_hello : crcOf [0x68, 0x65, 0x6C, 0x6C, 0x6F] = 0xC362 := by decide
theorem test_crc_init : (after .crcInit { small with hcrc := 0x31C3 }).map (·.hcrc) = some 0x0000 := by decide
theorem test_crc_byte : (after (.crcByte 0x39) { small with hcrc := 0x9015 }).map (·.hcrc) = some 0x31C3 := by decide

/-! Host commands. -/

/-- V-H5: NOP raises nothing. -/
theorem test_nop : (after .nop small).map (·.evtPend) = some 0x00 := by decide
/-- 41_encoder_mux.md R184; five bytes of 0 have CRC 0x0000 (V-C3). -/
theorem test_tx_send : (after (.txSend false) { small with txHdr := ⟨3, 0, 0x0005⟩ }).map
    (fun t => (t.txStaged, t.txSnap)) = some (true, ⟨3, 0, 5, 0x0000, false⟩) := by decide
/-- V-E6: one ENC_ERR for two errors. -/
theorem test_tx_send_error : (after (.txSend false) { small with txHdr := ⟨0x10, 0, 0x1000⟩ }).map
    (fun t => (t.evtPend, t.cnt.encerr, t.txStaged)) = some (0x20, 1, false) := by decide
/-- V-E8 (b). -/
theorem test_tx_cancel : (after .txCancel staged).map (fun t => (t.txStaged, t.evtPend)) = some (false, 0x00) := by decide
/-- V-E8 (c). -/
theorem test_tx_cancel_sending : (after .txCancel (sending 1)).map (fun t => (t.txStaged, t.evtPend)) = some (true, 0x80) := by
  decide
/-- P3, step 7. -/
theorem test_rx_pop : (after (.rxPop 2) holding).map (fun t => (t.rxq[2], t.evtPend)) = some ([], 0x00) := by decide
/-- V-X8 (b). -/
theorem test_rx_pop_no_channel : (after (.rxPop 7) holding).map (fun t => (t.rxq[2], t.evtPend)) = some ([hello], 0x80) := by
  decide
/-- V-X8 (d). -/
theorem test_rxq_clear : (after .rxqClear holding).map (·.rxq[2]) = some [] := by decide
/-- V-D8 (b). -/
theorem test_dec_abort : (after .decAbort { small with dstate := .readFormatLo }).map
    (fun t => (t.dstate, t.evtPend, t.cnt.decerr)) = some (.huntSync1, 0x04, 1) := by decide
/-- V-D8 (a). -/
theorem test_dec_abort_hunting : (after .decAbort { small with dstate := .huntSync2 }).map
    (fun t => (t.dstate, t.evtPend, t.cnt.decerr)) = some (.huntSync1, 0x00, 0) := by decide
/-- P6, step 4. -/
theorem test_tok_ack : (after (.tokAck 0x42) small).map (·.tokq) = some [⟨.ack, 0x42, 0x00⟩] := by decide
/-- 43_demux_tokens.md R270 with TOKQ full. -/
theorem test_tok_nack_full : (after (.tokNack 1 2) queued).map (fun t => (t.tokq.length, t.evtPend, t.cnt.tokdrop)) =
    some (1, 0x10, 1) := by decide
/-- V-X9. -/
theorem test_tok_nack : (after (.tokNack 0x42 0xFF) small).map (·.tokq) = some [⟨.nack, 0x42, 0xFF⟩] := by decide
/-- V-X10. -/
theorem test_tok_clear : (after .tokClear queued).map (·.tokq) = some [] := by decide
/-- V-H6. -/
theorem test_cnt_clear : (after .cntClear { small with cnt := ⟨0xFFFF, 0xFFFF, 0, 0, 0, 0, 0, 1⟩ }).map
    (fun t => t.readReg .cnt0) = some 0x00000000 := by decide

/-! Encoder and multiplexer (V-E1, V-E2, V-E10, V-E11, V-E12). -/

theorem test_encode_frame_command : encodeFrame 2 0x07 [0x02] = [0xEB, 0x90, 0x20, 0x01, 0x07, 0x02, 0x20, 0x42] := by decide
theorem test_token_frame_nack : tokenFrame ⟨.nack, 0x42, 0x01⟩ 0 = [0xEB, 0x90, 0x90, 0x02, 0x00, 0x42, 0x01, 0x7B, 0x8F] := by
  decide
theorem test_tx_pull_idle : (after .txPull small).map (·.replies) = some [.idle] := by decide
/-- P6, step 6: the automatic id reaches TX_HDR as the frame starts. -/
theorem test_tx_pull_auto_id :
    (after .txPull { staged with txSnap := ⟨2, 0, 0, 0, true⟩, txHdr := ⟨2, 0, 1⟩, nextId := 0xFF }).map
      (fun t => (t.txHdr.word, t.nextId, t.replies)) = some (0x0001FF02, 0x00, [.byte 0xEB]) := by decide

/-! Decoder (V-D1, V-S3, V-S4). -/

theorem test_rx_last_byte : (after (.rxByte 0x62) (lastByte 0xC362)).map (fun t => (t.dstate, t.rxq[2])) =
    some (.huntSync1, [hello]) := by decide
theorem test_rx_last_byte_corrupted : (after (.rxByte 0x62) (lastByte 0x6933)).map (fun t => (t.errInfo, t.errCrc)) =
    some (0x00054203, 0x6933C362) := by decide
/-! The frame types (V-X1): the channel of each, and the ACK of COMMAND and DATA. -/

/-- STATUS once a frame of no payload is emitted from reset, and the length of TOKQ. -/
def statusAfter (i : Instr) : Option Word := (after i small).map (·.status)

theorem test_frame_0 : statusAfter (.frameUnassigned0 0) = some 0x00004000 := by decide
theorem test_frame_configuration : statusAfter (.frameConfiguration 0) = some 0x01000100 := by decide
theorem test_frame_command : statusAfter (.frameCommand 0) = some 0x00010200 := by decide
theorem test_frame_data : statusAfter (.frameData 0) = some 0x00010400 := by decide
/-- V-X4: a full channel drops the frame without an ACK. -/
theorem test_frame_data_overflow : (after (.frameData 5) completeRxFull).map
    (fun t => (t.evtPend, t.readReg .cnt1, t.tokq)) = some (0x08, 0x00010000, []) := by decide
/-- V-X5: a delivered frame whose ACK is dropped. -/
theorem test_frame_command_ack_dropped : (after (.frameCommand 5) completeTokFull).map
    (fun t => (t.evtPend, t.readReg .cnt0, t.readReg .cnt3)) = some (0x11, 0x00000001, 0x00000001) := by decide
theorem test_frame_4 : statusAfter (.frameUnassigned4 0) = some 0x00004000 := by decide
theorem test_frame_5 : statusAfter (.frameUnassigned5 0) = some 0x00004000 := by decide
theorem test_frame_6 : statusAfter (.frameUnassigned6 0) = some 0x00004000 := by decide
theorem test_frame_7 : statusAfter (.frameUnassigned7 0) = some 0x00004000 := by decide
theorem test_frame_ack : statusAfter (.frameAck 0) = some 0x00000800 := by decide
theorem test_frame_nack : statusAfter (.frameNack 0) = some 0x00001000 := by decide
theorem test_frame_error : statusAfter (.frameError 0) = some 0x00002000 := by decide
theorem test_frame_b : statusAfter (.frameUnassignedB 0) = some 0x00004000 := by decide
theorem test_frame_c : statusAfter (.frameUnassignedC 0) = some 0x00004000 := by decide
theorem test_frame_d : statusAfter (.frameUnassignedD 0) = some 0x00004000 := by decide
theorem test_frame_e : statusAfter (.frameUnassignedE 0) = some 0x00004000 := by decide
theorem test_frame_f : statusAfter (.frameUnassignedF 0) = some 0x00004000 := by decide

/-! The function bytes as payload byte 0 (V-E1: the CRC of 03 is 0x3063, of 02 is 0x2042; V-C1, V-C3). -/

/-- DBUF[0] and DCRC after an instruction, from a decoder about to receive the payload. -/
def payloadAfter (i : Instr) : Option (Byte × Half) :=
  (after i { small with dstate := .readPayload, dfmt := 0x1005 }).map (fun t => (t.dbuf.read 0, t.dcrc))

theorem test_fn_set_baud_rate : payloadAfter .fnSetBaudRate = some (0x01, 0x1021) := by decide
theorem test_fn_set_ack_timeout : payloadAfter .fnSetAckTimeout = some (0x02, 0x2042) := by decide
theorem test_fn_transmit_token : payloadAfter .fnTransmitToken = some (0x03, 0x3063) := by decide
theorem test_fn_query_file : payloadAfter .fnQueryFile = some (0x01, 0x1021) := by decide
theorem test_fn_query_file_crc : payloadAfter .fnQueryFileCrc = some (0x02, 0x2042) := by decide
theorem test_fn_receive_file : payloadAfter .fnReceiveFile = some (0x03, 0x3063) := by decide
theorem test_fn_transmit_file : payloadAfter .fnTransmitFile = some (0x04, 0x4084) := by decide

/-! Host port (V-H1 to V-H4, V-X2, V-X3) and reset (V-H7). -/

theorem test_host_read_ctrl : (after (.hostRead 0x000) State.reset).map (·.replies) = some [.word 0x00000003] := by decide
theorem test_host_read_rx_hdr : (after (.hostRead 0x020) holding).map (·.replies) = some [.word 0x80054203] := by decide
theorem test_host_write_w1c : (after (.hostWrite 0x008 0x0F) { small with evtPend := 0xFF }).map (·.evtPend) = some 0xF0 := by
  decide
theorem test_host_write_txbuf_top : (after (.hostWrite 0x7FF8 0x1AB) small).map (·.txbuf.read 4094) = some 0xAB := by decide
theorem test_reset_while_sending : (after .reset (sending 3)).map (fun t => (t.status, t.txframe)) = some (0x00000000, []) := by
  decide

/-! Placing a word and stepping (log 1). -/

theorem test_step_crc_byte : step (State.reset.withFetchWord 32 0x00003102) = .next { State.reset with hcrc := 0x2672 } := rfl
theorem test_step_idle : step State.reset = .next State.reset := rfl
theorem test_reset_memory_wf : State.reset.memOk := by decide

/-! Witnesses: concrete operands that meet all hypotheses of a statement together, for each clause. -/

theorem witness_CrcCommandsUpdateHcrc :
    (0x00000001#32).extractLsb' 0 8 = 0x01 ∧ (0xFFFF3102#32).extractLsb' 0 8 = 0x02 := by decide

theorem witness_HcrcIsolatedFromFrames :
    Instr.txPull ≠ .crcInit ∧ (∀ b, Instr.txPull ≠ .crcByte b) ∧ Instr.txPull ≠ .reset ∧
    (∀ off v, Instr.txPull = .hostWrite off v → off = 0x010 → v.extractLsb' 0 8 ≠ 0x01 ∧ v.extractLsb' 0 8 ≠ 0x02) ∧
    exec .txPull small = .next { small with replies := [.idle] } ∧ Instr.txPull ≠ .hostRead 0x014 :=
  ⟨by decide, nofun, by decide, nofun, rfl, by decide⟩

theorem witness_NopAndCntClear :
    (0xFFFFFF00#32).extractLsb' 0 8 = 0x00 ∧ (0x00000040#32).extractLsb' 0 8 = 0x40 := by decide

theorem witness_TxSendStagesFrame :
    (0x00000110#32).extractLsb' 0 8 = 0x10 ∧ staged.txStaged = true ∧
    ((header ⟨0x10, 0, 0⟩).txStaged = false ∧ 0xF < (header ⟨0x10, 0, 0⟩).txHdr.type.toNat) ∧
    ((header ⟨3, 0, 0x1000⟩).txStaged = false ∧ 4095 < (header ⟨3, 0, 0x1000⟩).txHdr.len.toNat) ∧
    ((header ⟨0xF, 0, 0xFFF⟩).txStaged = false ∧ (header ⟨0xF, 0, 0xFFF⟩).txHdr.type.toNat ≤ 0xF ∧
      (header ⟨0xF, 0, 0xFFF⟩).txHdr.len.toNat ≤ 4095) := by decide

theorem witness_TxCancelUnstages :
    (0x00000011#32).extractLsb' 0 8 = 0x11 ∧ (staged.txStaged = true ∧ staged.txsrc ≠ .host) ∧
    small.txStaged = false ∧ (sending 1).txsrc = .host := by decide

theorem witness_RxPopRemovesHead :
    (0x00000220#32).extractLsb' 0 8 = 0x20 ∧ 6 < (7#8).toNat ∧
    ((6#8).toNat = (6 : Fin 7).val ∧ holding.rxq[(6 : Fin 7)] = []) ∧
    ((2#8).toNat = (2 : Fin 7).val ∧ holding.rxq[(2 : Fin 7)] = hello :: []) := by decide

theorem witness_QueueClearCommands :
    (0x00000021#32).extractLsb' 0 8 = 0x21 ∧ (0x00000032#32).extractLsb' 0 8 = 0x32 := by decide

theorem witness_DecAbortReturnsToHunt :
    (0x00000022#32).extractLsb' 0 8 = 0x22 ∧
    (lastByte 0).dstate ∈ [DState.readFormatHi, .readFormatLo, .readId, .readPayload, .readCrcHi, .readCrcLo] ∧
    small.dstate ∈ [DState.huntSync1, .huntSync2] := by decide

theorem witness_TokenCommandsQueueToken :
    (0x00004230#32).extractLsb' 0 8 = 0x30 ∧ (0x01FF4231#32).extractLsb' 0 8 = 0x31 ∧
    small.tokq.length < small.params.tokqDepth ∧ queued.params.tokqDepth ≤ queued.tokq.length := by decide

theorem witness_EncodedFrameLayout : (List.replicate 4095 (0 : Byte)).length ≤ 4095 :=
  List.length_replicate.le

theorem witness_TxPullSelectsFrame :
    (small.txsrc = .none ∧ small.tokq = [] ∧ small.txStaged = false) ∧
    (queued.txsrc = .none ∧ queued.tokq = ⟨.ack, 0x42, 0⟩ :: []) ∧
    (staged.txsrc = .none ∧ staged.tokq = [] ∧ staged.txStaged = true ∧ staged.txSnap.autoid = false) ∧
    (stagedAuto.txsrc = .none ∧ stagedAuto.tokq = [] ∧ stagedAuto.txStaged = true ∧ stagedAuto.txSnap.autoid = true) := by
  decide

theorem witness_TxPullSendsNextByte :
    ((sending 1).txsrc ≠ .none ∧ (sending 1).txframe[(sending 1).txpos.toNat]? = some 0x90 ∧
      (sending 1).txpos.toNat + 1 < (sending 1).txframe.length) ∧
    ((sending 6).txsrc ≠ .none ∧ (sending 6).txframe[(sending 6).txpos.toNat]? = some 0x00 ∧
      (sending 6).txpos.toNat + 1 = (sending 6).txframe.length ∧ (sending 6).txsrc = .host) ∧
    ((sendingToken 7).txsrc ≠ .none ∧ (sendingToken 7).txframe[(sendingToken 7).txpos.toNat]? = some 0x86 ∧
      (sendingToken 7).txpos.toNat + 1 = (sendingToken 7).txframe.length ∧ (sendingToken 7).txsrc = .token) := by decide

theorem witness_PullsSendStagedFrame :
    (staged.stagedOk ∧ staged.txsrc = .none ∧ staged.tokq = [] ∧ staged.txStaged = true ∧ staged.txSnap.autoid = false) ∧
    (stagedAuto.stagedOk ∧ stagedAuto.txsrc = .none ∧ stagedAuto.tokq = [] ∧ stagedAuto.txStaged = true ∧
      stagedAuto.txSnap.autoid = true) := by decide

theorem witness_PullsSendToken : queued.txsrc = .none ∧ queued.tokq = ⟨.ack, 0x42, 0⟩ :: [] := by decide

/-- A refused write leaves everything; the first pull of a frame with an automatic id changes the id. -/
theorem witness_StagedFrameIsLocked :
    ((sending 1).txStaged = true ∧ exec (.hostWrite 0x018 0x00000005) (sending 1) = .next { sending 1 with evtPend := 0x80 } ∧
      ({ sending 1 with evtPend := 0x80 } : State).txStaged = true) ∧
    (stagedAuto.txStaged = true ∧ ∃ t, exec .txPull stagedAuto = .next t ∧ t.txStaged = true ∧ t.txsrc = .host ∧
      t.txSnap.id = 0 ∧ t.txHdr.id = 0) :=
  ⟨⟨rfl, rfl, rfl⟩, rfl, _, rfl, rfl, rfl, rfl, rfl⟩

theorem witness_NextIdAdvancesOnlyAtStart :
    (queued.txsrc = .none ∧ queued.tokq ≠ []) ∧
    (stagedAuto.txsrc = .none ∧ stagedAuto.tokq = [] ∧ stagedAuto.txStaged = true ∧ stagedAuto.txSnap.autoid = true) ∧
    (Instr.txPull ≠ .reset ∧ (∀ v, Instr.txPull ≠ .hostWrite 0x040 v) ∧
      ¬ (Instr.txPull = .txPull ∧ staged.txsrc = .none ∧
        (staged.tokq ≠ [] ∨ (staged.txStaged = true ∧ staged.txSnap.autoid = true))) ∧
      ∃ t, exec .txPull staged = .next t) :=
  ⟨by decide, by decide, by decide, nofun, by decide, _, rfl⟩

theorem witness_RxByteBeforePayload :
    small.dstate = .huntSync1 ∧ ({ small with dstate := .huntSync2 } : State).dstate = .huntSync2 ∧
    (0x12 : Byte) ≠ 0x90 ∧ (0x12 : Byte) ≠ 0xEB ∧
    started.dstate = .readFormatHi ∧
    ({ small with dstate := .readFormatLo } : State).dstate = .readFormatLo ∧
    (({ small with dstate := .readId, dfmt := 0x3000 } : State).dstate = .readId ∧ (0x3000 : Half).extractLsb' 0 12 = 0) ∧
    (0x3FFF : Half).extractLsb' 0 12 ≠ 0 := by decide

theorem witness_RxBytePayloadAndCrcHigh :
    (lastPayload.dstate = .readPayload ∧ lastPayload.dbuf.wf ∧ lastPayload.didx.toNat < 4095) ∧
    ({ small with dstate := .readCrcHi } : State).dstate = .readCrcHi := by decide

theorem witness_RxByteCrcLowEmits : (lastByte 0xC362).dstate = .readCrcLo := by decide

theorem witness_LastCrcByteEndsFrame :
    ((lastByte 0xC362).dstate = .readCrcLo ∧ (0xC362 : Half) = (lastByte 0xC362).dcrcx.extractLsb' 8 8 ++ (0x62 : Byte) ∧
      (3 : BitVec 4) = (lastByte 0xC362).dfmt.extractLsb' 12 4 ∧ (5 : BitVec 12) = (lastByte 0xC362).dfmt.extractLsb' 0 12 ∧
      (2 : Fin 7) = channel 3) ∧
    ((lastByte 0xC362).dcrc = 0xC362 ∧ (lastByte 0xC362).rxq[(2 : Fin 7)].length < (lastByte 0xC362).params.rxqDepth ∧
      (lastByte 0xC362).ctrl.getLsbD 0 = true) ∧
    ({ lastByte 0xC362 with ctrl := 0 } : State).ctrl.getLsbD 0 = false ∧
    ({ lastByte 0xC362 with rxq := holding.rxq } : State).params.rxqDepth ≤
      ({ lastByte 0xC362 with rxq := holding.rxq } : State).rxq[(2 : Fin 7)].length ∧
    ((lastByte 0x6933).dcrc ≠ 0xC362 ∧ (lastByte 0x6933).ctrl.getLsbD 1 = true) ∧
    ({ lastByte 0x6933 with ctrl := 0 } : State).ctrl.getLsbD 1 = false := by decide

theorem witness_FrameDeliveredWithoutToken :
    ((.frameConfiguration, 0x1, 0) ∈ frameRows ∧ complete.dcrc = complete.dcrcx ∧
      complete.rxq[(0 : Fin 7)].length < complete.params.rxqDepth ∧ ((0x1 : BitVec 4) ≠ 0x2 ∧ (0x1 : BitVec 4) ≠ 0x3)) ∧
    ((.frameData, 0x3, 2) ∈ frameRows ∧ completeNoAck.dcrc = completeNoAck.dcrcx ∧
      completeNoAck.rxq[(2 : Fin 7)].length < completeNoAck.params.rxqDepth ∧ completeNoAck.ctrl.getLsbD 0 = false) :=
  ⟨⟨by simp [frameRows], by decide⟩, by simp [frameRows], by decide⟩

theorem witness_FrameDeliveredWithAck :
    (.frameData, 0x3, 2) ∈ frameRows ∧ ((0x3 : BitVec 4) = 0x2 ∨ (0x3 : BitVec 4) = 0x3) ∧
    (complete.dcrc = complete.dcrcx ∧ complete.rxq[(2 : Fin 7)].length < complete.params.rxqDepth ∧
      complete.ctrl.getLsbD 0 = true ∧ complete.tokq.length < complete.params.tokqDepth) ∧
    (completeTokFull.dcrc = completeTokFull.dcrcx ∧
      completeTokFull.rxq[(2 : Fin 7)].length < completeTokFull.params.rxqDepth ∧
      completeTokFull.ctrl.getLsbD 0 = true ∧ completeTokFull.params.tokqDepth ≤ completeTokFull.tokq.length) :=
  ⟨by simp [frameRows], by decide⟩

theorem witness_FrameDroppedWhenChannelFull :
    (.frameData, 0x3, 2) ∈ frameRows ∧ completeRxFull.dcrc = completeRxFull.dcrcx ∧
    completeRxFull.params.rxqDepth ≤ completeRxFull.rxq[(2 : Fin 7)].length :=
  ⟨by simp [frameRows], by decide⟩

theorem witness_FrameCorruptedReported :
    (.frameData, 0x3, 2) ∈ frameRows ∧
    ((corrupted 1).dcrc ≠ (corrupted 1).dcrcx ∧ (corrupted 1).ctrl.getLsbD 1 = false) ∧
    ((corrupted 2).dcrc ≠ (corrupted 2).dcrcx ∧ (corrupted 2).ctrl.getLsbD 1 = true ∧
      (corrupted 2).tokq.length < (corrupted 2).params.tokqDepth) ∧
    (({ corrupted 2 with tokq := queued.tokq } : State).dcrc ≠ ({ corrupted 2 with tokq := queued.tokq } : State).dcrcx ∧
      ({ corrupted 2 with tokq := queued.tokq } : State).ctrl.getLsbD 1 = true ∧
      ({ corrupted 2 with tokq := queued.tokq } : State).params.tokqDepth ≤
        ({ corrupted 2 with tokq := queued.tokq } : State).tokq.length) :=
  ⟨by simp [frameRows], by decide⟩

theorem witness_FunctionByteIsOpaque :
    (.fnTransmitFile, 0x2, 0x4) ∈ functionRows ∧
    waiting.dstate = .readPayload ∧ waiting.didx = 0 :=
  ⟨by simp [functionRows], by decide⟩

theorem witness_FrameBytesLeadToEmit :
    started.dstate = .readFormatHi ∧ started.didx = 0 ∧ started.dcrc = 0x0000 ∧
    ([0x68, 0x65] : List Byte).length = (fmtLen 0x3002).toNat := by decide

theorem witness_EncodedFrameIsReceived :
    (small.dbuf.wf ∧ small.dstate.hunting ∧ ([0x68] : List Byte).length ≤ 4095) ∧
    small.rxq[channel 3].length < small.params.rxqDepth ∧
    (holding.dbuf.wf ∧ holding.dstate.hunting ∧ holding.params.rxqDepth ≤ holding.rxq[channel 3].length) := by decide

theorem witness_ResyncThroughNoise :
    small.dbuf.wf ∧ small.dstate = .huntSync1 ∧ ([0x68] : List Byte).length ≤ 4095 ∧
    small.rxq[channel 3].length < small.params.rxqDepth ∧
    ¬ [0xEB, 0x90] <:+: ([0x00, 0xEB, 0x12, 0xEB] : List Byte) ∧ ¬ [0xEB, 0x90] <:+: ([0x90, 0xEB] : List Byte) := by decide

theorem witness_SingleBitFlipRejected :
    small.dstate.hunting ∧ ([0x68] : List Byte).length ≤ 4095 ∧ 2 < ([0x68] : List Byte).length + 2 ∧ 7 < 8 := by decide

theorem witness_StaleDbufIsUnobservable :
    waiting.decoderOk ∧ waiting.dbuf.wf ∧ Mem.wf [(0, 0xFF)] ∧
    Mem.slice [(0, 0xFF)] waiting.didx.toNat = waiting.dbuf.slice waiting.didx.toNat ∧ (∃ t, step waiting = .next t) :=
  ⟨⟨show (0 : BitVec 12) < 2 by decide, by decide⟩, by decide, by decide, by decide, _, rfl⟩

theorem witness_HostReadReturnsStatus :
    holding.tokq.length ≤ 255 ∧ (∀ c : Fin 7, holding.rxq[c].length ≤ 255) ∧ holding.dstate ≠ .emit ∧
    holding.rxSel.toNat = (2 : Fin 7).val ∧
    (small.tokq.length ≤ 255 ∧ (∀ c : Fin 7, small.rxq[c].length ≤ 255) ∧ small.dstate ≠ .emit) ∧
    ({ holding with rxSel := 7 } : State).rxSel = 7 := by decide

theorem witness_HostReadReturnsRxView :
    (holding.rxSel.toNat = (2 : Fin 7).val ∧ holding.rxq[(2 : Fin 7)] = hello :: []) ∧
    (hello.payload[4]? = some 0x6F ∧ 4 < hello.len.toNat) ∧ hello.len.toNat ≤ 5 ∧ 4094 < 4095 ∧
    ({ holding with rxSel := 7 } : State).rxSel = 7 ∧ (small.rxSel.toNat = (0 : Fin 7).val ∧ small.rxq[(0 : Fin 7)] = []) := by
  decide

theorem witness_TxbufWindowReadsAndWrites :
    4094 < 4095 ∧ staged.txStaged = true ∧ (small.txStaged = false ∧ small.txbuf.wf) := by decide

theorem witness_RefusedAccessesRaiseReject :
    (0x002 : Half).extractLsb' 0 2 ≠ 0 ∧
    (0x044 ≤ (0x044 : Half).toNat ∧ (0x3FFC : Half).toNat ≤ 0x3FFC) ∧ (0x7FFC : Half).toNat = 0x7FFC ∧
    0xBFFC ≤ (0xBFFC : Half).toNat ∧
    (0x004 : Half) ∈ [0x004#16, 0x014, 0x020, 0x024, 0x028, 0x02C, 0x030, 0x034, 0x038, 0x03C] ∧ 4094 < 4095 := by decide

theorem witness_HostWriteSetsRegister : staged.txStaged = true ∧ small.txStaged = false := by decide

theorem witness_CmdWriteRunsCommand :
    decodeCommand 0x00003102 = .ok (.crcByte 0x31) ∧
    (0x00000003#32).extractLsb' 0 8 ∉ [0x00#8, 0x01, 0x02, 0x10, 0x11, 0x20, 0x21, 0x22, 0x30, 0x31, 0x32, 0x40] := by decide

theorem witness_UnusedOperandBitsIgnored :
    ((0xFFFFFF00#32).extractLsb' 0 8 = (0x00000000#32).extractLsb' 0 8 ∧
      (0xFFFFFF00#32).extractLsb' 0 8 ∈ [0x00#8, 0x01, 0x11, 0x21, 0x22, 0x32, 0x40]) ∧
    ((0xFFFFFF10#32).extractLsb' 0 8 = 0x10 ∧ (0xFFFFFF10#32).getLsbD 8 = (0x00000110#32).getLsbD 8) ∧
    ((0xFFFF3102#32).extractLsb' 0 8 ∈ [0x02#8, 0x20, 0x30] ∧
      (0xFFFF3102#32).extractLsb' 8 8 = (0x00003102#32).extractLsb' 8 8) ∧
    ((0xFF014231#32).extractLsb' 0 8 = 0x31 ∧ (0xFF014231#32).extractLsb' 8 16 = (0x00014231#32).extractLsb' 8 16) := by decide

theorem witness_DecodeOfEncode : (Instr.tokNack 0x42 0xFF).wellFormed = true := by decide

theorem witness_PendingBitsAreSticky :
    Instr.nop ≠ .reset ∧ ({ small with evtPend := 0x80 } : State).evtPend.getLsbD 7 = true ∧
    exec .nop { small with evtPend := 0x80 } = .next { small with evtPend := 0x80 } :=
  ⟨by decide, by decide, rfl⟩

theorem witness_RejectRaisedExactlyWhenRefused :
    small.evtPend.getLsbD 7 = false ∧
    (exec (.hostRead 0x002) small = .next { small with evtPend := 0x80, replies := [.word 0] } ∧ badOffset 0x002) ∧
    (exec .txCancel small = .next { small with evtPend := 0x80 } ∧ refusedIn .txCancel small) :=
  ⟨by decide, ⟨rfl, .inl (by decide)⟩, rfl, .inl rfl⟩

theorem witness_ErrorsDoNotCross :
    exec (.rxByte 0xEB) small = .next { small with dstate := .huntSync2 } ∧
    exec .decAbort small = .next small ∧
    exec (.tokAck 0x42) small = .next queued ∧
    exec (.tokNack 0x42 1) queued = .next { queued with evtPend := 0x10, cnt := ⟨0, 0, 0, 0, 0, 0, 1, 0⟩ } ∧
    exec (.txSend false) staged = .next { staged with evtPend := 0x80 } ∧
    exec .txCancel staged = .next { staged with txStaged := false } ∧
    exec .txPull small = .next { small with replies := [.idle] } := ⟨rfl, rfl, rfl, rfl, rfl, rfl, rfl⟩

theorem witness_QueuedFramesAreStable :
    (∀ b, Instr.rxByte 0x62 ≠ .rxPop b) ∧ Instr.rxByte 0x62 ≠ .rxqClear ∧ Instr.rxByte 0x62 ≠ .reset ∧
    (∀ v : Word, Instr.rxByte 0x62 = .hostWrite 0x010 v → v.extractLsb' 0 8 ≠ 0x20 ∧ v.extractLsb' 0 8 ≠ 0x21) ∧
    exec (.rxByte 0x62) (lastByte 0x6933) =
      .next { lastByte 0x6933 with
        dstate := .huntSync1, dcrcx := 0xC362, errInfo := 0x00054203, errCrc := 0x6933C362
        evtPend := 0x02, cnt := ⟨0, 1, 0, 0, 0, 0, 0, 0⟩, tokq := [⟨.nack, 0x42, 0x01⟩] } :=
  ⟨nofun, by decide, by decide, nofun, rfl⟩

theorem witness_StepKeepsMemory : waiting.params.ok ∧ waiting.memOk ∧ (∃ t, step waiting = .next t) :=
  ⟨by decide, by decide, _, rfl⟩

theorem witness_StepKeepsDecoder : waiting.dbuf.wf ∧ waiting.decoderOk ∧ (∃ t, step waiting = .next t) :=
  ⟨by decide, ⟨show (0 : BitVec 12) < 2 by decide, by decide⟩, _, rfl⟩

theorem witness_StepKeepsRxQueues :
    ({ lastByte 0xC362 with inbox := [.rxByte 0x62] } : State).decoderOk ∧
    ({ lastByte 0xC362 with inbox := [.rxByte 0x62] } : State).rxqOk ∧
    (∃ t, step { lastByte 0xC362 with inbox := [.rxByte 0x62] } = .next t) :=
  ⟨⟨show (5 : BitVec 12) = 5 by decide, by decide⟩, by decide, _, rfl⟩

theorem witness_StepKeepsTokenQueue : queued.tokqOk ∧ (∃ t, step queued = .next t) := ⟨by decide, _, rfl⟩

theorem witness_StepKeepsTransmitter :
    ({ sending 1 with inbox := [.txPull] } : State).stagedOk ∧ ({ sending 1 with inbox := [.txPull] } : State).serialiserOk ∧
    (∃ t, step { sending 1 with inbox := [.txPull] } = .next t) :=
  ⟨by decide, ⟨by decide, by decide, by decide⟩, _, rfl⟩

theorem witness_ResetStateIsSafe : Params.atReset.ok ∧ Params.ok ⟨1, 1, [(4094, 0xFF)]⟩ := by decide

theorem witness_StepRunsNextEvent :
    State.reset.inbox = [] ∧ waiting.inbox = .rxByte 0x68 :: [] := by decide

theorem witness_PlacedWordIsRun :
    decodeTableWord 32 0x00003102 = some (.crcByte 0x31) ∧ decodeTableWord 16 0x3005 = some (.frameData 5) ∧
    decodeTableWord 8 0x04 = some .fnTransmitFile ∧ decodeTableWord 48 0x000542030018 = some (.hostWrite 0x018 0x00054203) := by
  decide

end Sys2Proof.Tests
end

section
/-! PROOFS. DBUF behind DIDX (10_state.md R35): every event but an RX byte and a reset leaves DBUF and DIDX and does not see
them; an RX byte sees the bytes below DIDX alone; a reset overwrites DBUF. -/

namespace Sys2Proof.Machine

/-- `s` with DBUF and DIDX replaced. An operation that commutes with every such replacement neither sees the two nor changes
them. -/
def State.setBuf (d : Mem) (n : BitVec 12) (s : State) : State := { s with dbuf := d, didx := n }

/-- A result with its next state, if it has one, changed by `f`. -/
def Result.mapNext (f : State → State) : Result → Result
  | .next t => .next (f t)
  | .fault r => .fault r
  | .refused r => .refused r

@[simp] theorem Result.mapNext_next (f : State → State) (t : State) : Result.mapNext f (.next t) = .next (f t) := rfl

/-- A meaning that neither sees nor changes DBUF and DIDX. -/
def IgnoresBuf (f : State → Result) : Prop :=
  ∀ (s : State) (d : Mem) (n : BitVec 12), f (s.setBuf d n) = (f s).mapNext (State.setBuf d n)

/-- `d` is DBUF in canonical form but for bytes at DIDX or above. -/
def State.AgreesWith (s : State) (d : Mem) : Prop := d.wf ∧ d.slice s.didx.toNat = s.dbuf.slice s.didx.toNat

/-- Where `f` leads from `s` to `t`, it leads from `s` with DBUF `d` to `t` but for bytes of DBUF at DIDX or above. -/
def StaleBytesUnseen (f : State → Result) (s : State) (d : Mem) (t : State) : Prop :=
  ∃ d', t.AgreesWith d' ∧ f { s with dbuf := d } = .next { t with dbuf := d' }

/-- What commutes with replacing DBUF by one with the same bytes below DIDX, and DIDX by any, sees no stale byte and leaves
them where they are. -/
theorem staleBytesUnseen_of_commutes {f : State → Result} {s t : State} {d : Mem} (hd : s.AgreesWith d)
    (h : f s = .next t)
    (hf : ∀ d' n, d'.slice s.didx.toNat = s.dbuf.slice s.didx.toNat → f (s.setBuf d' n) = .next (t.setBuf d' n)) :
    StaleBytesUnseen f s d t := by
  have hkeep : t.setBuf s.dbuf s.didx = t := by
    injection (hf s.dbuf s.didx rfl).symm.trans h
  rw [← hkeep]
  exact ⟨d, hd, hf d s.didx hd.2⟩

theorem IgnoresBuf.staleBytesUnseen {f : State → Result} (hf : IgnoresBuf f) {s t : State} {d : Mem}
    (hd : s.AgreesWith d) (h : f s = .next t) : StaleBytesUnseen f s d t :=
  staleBytesUnseen_of_commutes hd h fun d' n _ => by rw [hf, h, Result.mapNext_next]

/-! The shared operations commute with replacing DBUF and DIDX. -/

section
variable (d : Mem) (n : BitVec 12) (s : State)

@[simp] theorem State.setBuf_dstate : (s.setBuf d n).dstate = s.dstate := rfl
@[simp] theorem State.setBuf_txsrc : (s.setBuf d n).txsrc = s.txsrc := rfl
@[simp] theorem State.setBuf_tokq : (s.setBuf d n).tokq = s.tokq := rfl
@[simp] theorem State.setBuf_txStaged : (s.setBuf d n).txStaged = s.txStaged := rfl
@[simp] theorem State.setBuf_txframe : (s.setBuf d n).txframe = s.txframe := rfl
@[simp] theorem State.setBuf_txpos : (s.setBuf d n).txpos = s.txpos := rfl

@[simp] theorem State.raise_setBuf (e : Evt) : (s.setBuf d n).raise e = (s.raise e).setBuf d n := rfl

@[simp] theorem State.pushRx_setBuf (c : Fin 7) (r : FrameRecord) :
    (s.setBuf d n).pushRx c r = (s.pushRx c r).setBuf d n := rfl

@[simp] theorem State.reply_setBuf (r : Reply) : (s.setBuf d n).reply r = (s.reply r).setBuf d n := rfl

@[simp] theorem State.genToken_setBuf (k : TokenRecord) : (s.setBuf d n).genToken k = (s.genToken k).setBuf d n := by
  rw [State.genToken_eq, State.genToken_eq]
  rfl

theorem State.deliver_setBuf (r : FrameRecord) : (s.setBuf d n).deliver r = (s.deliver r).setBuf d n := by
  rcases lt_or_ge s.rxq[channel r.type].length s.params.rxqDepth with h | h
  · rw [State.deliver_room h, State.deliver_room (s := s.setBuf d n) h, apply_ite (State.setBuf d n)]
    simp only [State.pushRx_setBuf, State.raise_setBuf, State.genToken_setBuf]
    rfl
  · rw [State.deliver_full h, State.deliver_full (s := s.setBuf d n) h, State.raise_setBuf]

theorem State.integrityError_setBuf (t : BitVec 4) (len : BitVec 12) :
    (s.setBuf d n).integrityError t len = (s.integrityError t len).setBuf d n := by
  simp only [State.integrityError, apply_ite (State.setBuf d n), ← State.genToken_setBuf]
  rfl

theorem State.startHost_setBuf : (s.setBuf d n).startHost = s.startHost.setBuf d n := by
  simp only [State.startHost, apply_ite (State.setBuf d n)]
  rfl

theorem State.finishFrame_setBuf : (s.setBuf d n).finishFrame = s.finishFrame.setBuf d n := by
  unfold State.finishFrame
  rw [State.setBuf_txsrc]
  cases s.txsrc <;> rfl

theorem State.selectFrame_setBuf : (s.setBuf d n).selectFrame = s.selectFrame.map (State.setBuf d n) := by
  unfold State.selectFrame
  simp only [State.setBuf_txsrc, State.setBuf_tokq, State.setBuf_txStaged, State.startHost_setBuf]
  cases s.txsrc with
  | none =>
    cases s.tokq with
    | cons k rest => rfl
    | nil =>
      simp only [apply_ite (Option.map (State.setBuf d n))]
      rfl
  | _ => rfl

theorem State.sendByte_setBuf : (s.setBuf d n).sendByte = s.sendByte.setBuf d n := by
  unfold State.sendByte
  simp only [State.setBuf_txframe, State.setBuf_txpos]
  rcases s.txframe.drop s.txpos.toNat with _ | ⟨b, _ | ⟨b', l⟩⟩
  · rfl
  · exact congrArg (State.reply (.byte b)) (State.finishFrame_setBuf d n { s with txpos := s.txpos + 1 })
  · rfl
end

/-! The meanings that ignore DBUF and DIDX. -/

theorem execTxSend_ignoresBuf (a : Bool) : IgnoresBuf (execTxSend a) := by
  intro s d n
  simp only [execTxSend, apply_ite (Result.mapNext (State.setBuf d n))]
  rfl

theorem execTxCancel_ignoresBuf : IgnoresBuf execTxCancel := by
  intro s d n
  simp only [execTxCancel, apply_ite (Result.mapNext (State.setBuf d n))]
  rfl

theorem execRxPop_ignoresBuf (c : Byte) : IgnoresBuf (execRxPop c) := by
  intro s d n
  unfold execRxPop
  cases channelOf c.toNat with
  | none => rfl
  | some ch =>
    simp only [apply_ite (Result.mapNext (State.setBuf d n))]
    rfl

theorem execDecAbort_ignoresBuf : IgnoresBuf execDecAbort := by
  intro s d n
  unfold execDecAbort
  rw [State.setBuf_dstate]
  cases s.dstate.inFrame <;> rfl

theorem execute_ignoresBuf (v : Word) : IgnoresBuf (execute v) := by
  intro s d n
  unfold execute
  cases decodeCommand v with
  | error e => rfl
  | ok i =>
    cases i with
    | txSend a => exact execTxSend_ignoresBuf a s d n
    | txCancel => exact execTxCancel_ignoresBuf s d n
    | rxPop c => exact execRxPop_ignoresBuf c s d n
    | decAbort => exact execDecAbort_ignoresBuf s d n
    | tokAck e => exact congrArg _ (s.genToken_setBuf d n _)
    | tokNack e r => exact congrArg _ (s.genToken_setBuf d n _)
    | _ => rfl

theorem writeReg_ignoresBuf (r : Reg) (v : Word) : IgnoresBuf (writeReg r v) := by
  intro s d n
  cases r with
  | cmd => exact execute_ignoresBuf v s d n
  | txHdr =>
    simp only [writeReg, apply_ite (Result.mapNext (State.setBuf d n))]
    rfl
  | _ => rfl

theorem execHostWrite_ignoresBuf (off : Half) (v : Word) : IgnoresBuf (execHostWrite off v) := by
  intro s d n
  unfold execHostWrite
  cases target off with
  | reg r => exact writeReg_ignoresBuf r v s d n
  | txbuf i =>
    simp only [apply_ite (Result.mapNext (State.setBuf d n))]
    rfl
  | _ => rfl

theorem execHostRead_ignoresBuf (off : Half) : IgnoresBuf (execHostRead off) := by
  intro s d n
  have hv : (s.setBuf d n).readTarget (target off) = s.readTarget (target off) := by
    cases target off with
    | reg r => cases r <;> rfl
    | _ => rfl
  unfold execHostRead
  rw [hv]
  cases target off <;> rfl

theorem execTxPull_ignoresBuf : IgnoresBuf execTxPull := by
  intro s d n
  unfold execTxPull
  rw [State.selectFrame_setBuf]
  cases s.selectFrame with
  | none => rfl
  | some u => exact congrArg _ (u.sendByte_setBuf d n)

/-! An RX byte, state by state of the decoder. -/

/-- EMIT reads the bytes below the frame's length alone. -/
theorem State.emitFrame_setBuf (t : BitVec 4) (len : BitVec 12) (s : State) {d : Mem} (n : BitVec 12)
    (h : d.slice len.toNat = s.dbuf.slice len.toNat) :
    (s.setBuf d n).emitFrame t len = (s.emitFrame t len).setBuf d n := by
  have hrec : (s.setBuf d n).received t len = s.received t len := by
    unfold State.received
    exact congrArg (FrameRecord.mk t s.did len · s.dcrcx) h
  unfold State.emitFrame
  rw [hrec, State.deliver_setBuf, State.integrityError_setBuf, ← apply_ite (State.setBuf d n)]
  rfl

/-- EMIT of a frame whose payload has been received whole. -/
theorem emitFrame_staleBytesUnseen (t : BitVec 4) {len : BitVec 12} {s : State} {d : Mem} (hd : s.AgreesWith d)
    (hlen : s.didx = len) : StaleBytesUnseen (fun u => .next (u.emitFrame t len)) s d (s.emitFrame t len) :=
  staleBytesUnseen_of_commutes hd rfl fun _ n h =>
    congrArg Host.Outcome.next (s.emitFrame_setBuf t len n (hlen ▸ h))

/-- A payload byte goes to the first stale index, so both buffers hold it below the new DIDX. -/
theorem rxPayload_staleBytesUnseen (b : Byte) {s : State} {d : Mem} (hs : s.dbuf.wf) (hd : s.AgreesWith d)
    (hidx : s.didx < fmtLen s.dfmt) :
    StaleBytesUnseen (fun u => .next (u.rxPayload b)) s d (s.rxPayload b) := by
  obtain ⟨hwf, hslice⟩ := hd
  have hroom : s.didx.toNat < Config.maxPayload := by
    change s.didx.toNat < 4095
    bv_omega
  have hsucc : (s.didx + 1).toNat = s.didx.toNat + 1 := by bv_omega
  refine ⟨d.write s.didx.toNat b, ⟨Mem.wf_write hwf _ _, ?_⟩, rfl⟩
  change (d.write s.didx.toNat b).slice (s.didx + 1).toNat = (s.dbuf.write s.didx.toNat b).slice (s.didx + 1).toNat
  rw [hsucc, Mem.slice_write hwf hroom, Mem.slice_write hs hroom, hslice]

theorem rxHunt1_staleBytesUnseen (b : Byte) {s : State} {d : Mem} (hd : s.AgreesWith d) :
    StaleBytesUnseen (fun u => .next (u.rxHunt1 b)) s d (s.rxHunt1 b) :=
  staleBytesUnseen_of_commutes hd rfl fun d' n _ => by
    simp only [State.rxHunt1, apply_ite (State.setBuf d' n)]
    rfl

/-- The second sync byte sets DIDX to 0, and every byte of DBUF is stale. -/
theorem rxHunt2_staleBytesUnseen (b : Byte) {s : State} {d : Mem} (hd : s.AgreesWith d) :
    StaleBytesUnseen (fun u => .next (u.rxHunt2 b)) s d (s.rxHunt2 b) := by
  unfold StaleBytesUnseen State.rxHunt2
  split_ifs
  · exact ⟨d, ⟨hd.1, rfl⟩, rfl⟩
  · exact ⟨d, hd, rfl⟩
  · exact ⟨d, hd, rfl⟩

theorem execRxByte_staleBytesUnseen (b : Byte) {s : State} {d : Mem} (hs : s.dbuf.wf) (hd : s.AgreesWith d)
    (hdidx : s.didxOk) : StaleBytesUnseen (execRxByte b) s d (s.rxByte b) := by
  obtain ⟨_, dstate⟩ := s
  cases dstate with
  | huntSync1 => exact rxHunt1_staleBytesUnseen b hd
  | huntSync2 => exact rxHunt2_staleBytesUnseen b hd
  | readPayload => exact rxPayload_staleBytesUnseen b hs hd hdidx
  | readCrcLo => exact emitFrame_staleBytesUnseen (s := State.rxCrcLo b _) _ hd hdidx
  | emit => exact hdidx.elim
  | readFormatHi => exact ⟨d, hd, rfl⟩
  | readFormatLo => exact ⟨d, hd, rfl⟩
  | readId => exact ⟨d, hd, rfl⟩
  | readCrcHi => exact ⟨d, hd, rfl⟩

/-! A step. -/

theorem step_of_inbox_nil {s : State} (h : s.inbox = []) : step s = .next s := by
  simp only [step, State.fetch, h]

theorem step_of_inbox_cons {s : State} {e : Stimulus} {rest : List Stimulus} (h : s.inbox = e :: rest) :
    step s = exec e.instr { s with inbox := rest } := by
  simp only [step, State.fetch, h]

/-- A host write is what its name in `inbox` does, the command's or its own. -/
theorem exec_decodeWrite (off : Half) (v : Word) (s : State) : exec (decodeWrite off v) s = execHostWrite off v s := by
  unfold decodeWrite
  split_ifs with hoff
  · cases h : decodeCommand v with
    | error e => rfl
    | ok i =>
      subst hoff
      exact (execute_of_ok h s).symm
  · rfl

/-- What an event's instruction does to a state with a legal decoder does not depend on stale bytes of DBUF. -/
theorem exec_stimulus_staleBytesUnseen (e : Stimulus) {s t : State} {d : Mem} (hs : s.dbuf.wf) (hd : s.AgreesWith d)
    (hdidx : s.didxOk) (h : exec e.instr s = .next t) : StaleBytesUnseen (exec e.instr) s d t := by
  cases e with
  | rxByte b =>
    injection h with h
    exact h ▸ execRxByte_staleBytesUnseen b hs hd hdidx
  | txPull => exact execTxPull_ignoresBuf.staleBytesUnseen hd h
  | hostRead off => exact (execHostRead_ignoresBuf off).staleBytesUnseen hd h
  | hostWrite off v =>
    have hf : exec (Stimulus.hostWrite off v).instr = execHostWrite off v := funext (exec_decodeWrite off v)
    rw [hf] at h ⊢
    exact (execHostWrite_ignoresBuf off v).staleBytesUnseen hd h
  | reset =>
    injection h with h
    subst h
    exact ⟨[], ⟨Mem.wf_nil, rfl⟩, rfl⟩

/-- Settles O34: an event sees DBUF only at EMIT, below a length that DIDX has reached. -/
theorem staleDbufIsUnobservable : Obligations.StaleDbufIsUnobservable := by
  intro s t d ⟨hdidx, _⟩ hs hwf hslice hstep
  suffices h : StaleBytesUnseen step s d t by
    obtain ⟨d', ⟨hwf', hslice'⟩, hrun⟩ := h
    exact ⟨d', hwf', hrun, hslice'⟩
  have hd : s.AgreesWith d := ⟨hwf, hslice⟩
  cases hin : s.inbox with
  | nil =>
    injection (step_of_inbox_nil hin).symm.trans hstep with hst
    exact ⟨d, hst ▸ hd, hst ▸ step_of_inbox_nil (s := { s with dbuf := d }) hin⟩
  | cons e rest =>
    obtain ⟨d', hd', hrun⟩ := exec_stimulus_staleBytesUnseen e (s := { s with inbox := rest }) hs hd hdidx
      ((step_of_inbox_cons hin).symm.trans hstep)
    exact ⟨d', hd', (step_of_inbox_cons (s := { s with dbuf := d }) hin).trans hrun⟩

end Sys2Proof.Machine
end

section
/-! PROOFS. The operand bits of a command word (30_encoding.md R121, R123). -/

namespace Sys2Proof

/-- R123: a command word is decoded from its opcode and the operand bits R121 lists for that opcode, and from no others. -/
theorem decodeCommand_congr {v w : Word} (hop : cmdOp v = cmdOp w)
    (hbit : cmdOp v = 0x10 → (cmdA8 v).getLsbD 0 = (cmdA8 w).getLsbD 0)
    (hA8 : cmdOp v ∈ [0x02#8, 0x20, 0x30, 0x31] → cmdA8 v = cmdA8 w)
    (hA16 : cmdOp v = 0x31 → loByte (cmdA16 v) = loByte (cmdA16 w)) : decodeCommand v = decodeCommand w := by
  unfold decodeCommand
  rw [← hop]
  split
  case h_3 h | h_6 h | h_9 h => rw [hA8 (by simp [h])]
  case h_4 h => rw [hbit h]
  case h_10 h => rw [hA8 (by simp [h]), hA16 h]
  all_goals rfl

/-- A8[0] is bit 8 of the word (R120). -/
theorem cmdA8_getLsbD_zero (v : Word) : (cmdA8 v).getLsbD 0 = v.getLsbD 8 := by
  simp [cmdA8]

/-- Bits of a bit field are bits of the word. -/
theorem extractLsb'_extractLsb' {k a m b n : Nat} (x : BitVec k) (h : b + n ≤ m) :
    (x.extractLsb' a m).extractLsb' b n = x.extractLsb' (a + b) n := by
  ext i hi
  simp [show b + i < m by omega, Nat.add_assoc]

/-- A8 is the low byte of bits 23..8 of the word (R120). -/
theorem cmdA8_eq_loByte (v : Word) : cmdA8 v = loByte (v.extractLsb' 8 16) := by
  simp [cmdA8, loByte, extractLsb'_extractLsb']

/-- A16[7:0] is the high byte of bits 23..8 of the word (R120). -/
theorem loByte_cmdA16_eq_hiByte (v : Word) : loByte (cmdA16 v) = hiByte (v.extractLsb' 8 16) := by
  simp [cmdA16, loByte, hiByte, extractLsb'_extractLsb']

end Sys2Proof

namespace Sys2Proof.Machine

/-- A write to CMD executes the word (R308). -/
theorem exec_hostWrite_cmd (v : Word) (s : State) : exec (.hostWrite 0x010 v) s = execute v s := rfl

/-- Words decoded alike have the same effect when written to CMD. -/
theorem exec_hostWrite_cmd_congr {v w : Word} (h : decodeCommand v = decodeCommand w) (s : State) :
    exec (.hostWrite 0x010 v) s = exec (.hostWrite 0x010 w) s := by
  rw [exec_hostWrite_cmd, exec_hostWrite_cmd]
  unfold execute
  rw [h]

/-- Settles O42: words that agree on the bits a command uses are decoded alike, group by group of R121's operand column. -/
theorem unusedOperandBitsIgnored : Obligations.UnusedOperandBitsIgnored := by
  intro s v w (hop : cmdOp v = cmdOp w)
  have hcongr := fun hbit hA8 hA16 => exec_hostWrite_cmd_congr (decodeCommand_congr hop hbit hA8 hA16) s
  refine ⟨fun (hv : cmdOp v ∈ _) => ?none, fun (hv : cmdOp v = _) hbit => ?bit,
    fun (hv : cmdOp v ∈ _) (hA8 : cmdA8 v = cmdA8 w) => ?a8, fun (hv : cmdOp v = _) hops => ?a8_a16⟩
  case none =>
    have hunused : ∀ op ∈ [0x00#8, 0x01, 0x11, 0x21, 0x22, 0x32, 0x40],
        op ≠ 0x10 ∧ op ∉ [0x02#8, 0x20, 0x30, 0x31] ∧ op ≠ 0x31 := by decide
    obtain ⟨hnbit, hnA8, hnA16⟩ := hunused _ hv
    exact hcongr (absurd · hnbit) (absurd · hnA8) (absurd · hnA16)
  case bit =>
    exact hcongr (fun _ => by rwa [cmdA8_getLsbD_zero, cmdA8_getLsbD_zero]) (by simp [hv]) (by simp [hv])
  case a8 =>
    have hnA16 : ∀ op ∈ [0x02#8, 0x20, 0x30], op ≠ 0x31 := by decide
    exact hcongr (fun _ => by rw [hA8]) (fun _ => hA8) (absurd · (hnA16 _ hv))
  case a8_a16 =>
    exact hcongr (by simp [hv]) (fun _ => by rw [cmdA8_eq_loByte, cmdA8_eq_loByte, hops])
      (fun _ => by rw [loByte_cmdA16_eq_hiByte, loByte_cmdA16_eq_hiByte, hops])

end Sys2Proof.Machine
end

section
/-! PROOFS. The CRC engine (40_crc.md): its bitwise form, its folds, its printed table. -/

namespace Sys2Proof.Machine

/-- A half word is its high byte at bits 15..8 and its low byte at bits 7..0. -/
theorem hiByte_shiftLeft_xor_loByte (c : Half) : ((hiByte c).setWidth 16 <<< 8) ^^^ (loByte c).setWidth 16 = c := by
  unfold hiByte loByte
  ext i hi
  rcases Nat.lt_or_ge i 8 with h | h
  · simp [h, BitVec.getLsbD_eq_getElem hi]
  · simp [show ¬ i < 8 by omega, show i - 8 < 8 by omega, show 8 + (i - 8) = i by omega, BitVec.getLsbD_eq_getElem hi]

/-- Shifting a half word up by a byte drops its high byte. -/
theorem loByte_shiftLeft (c : Half) : (loByte c).setWidth 16 <<< 8 = c <<< 8 := by
  unfold loByte
  ext i hi
  rcases Nat.lt_or_ge i 8 with h | h
  · simp [h]
  · simp [show ¬ i < 8 by omega, show i - 8 < 8 by omega, show i - 8 < 16 by omega]

/-- Settles O2: eight steps act on the two bytes of the register apart, on the high one as the table does, and on the low one as
a shift. -/
theorem crcUpdateIsBitwise : Obligations.CrcUpdateIsBitwise := by
  intro c b
  have hbytes : c ^^^ (b.setWidth 16 <<< 8) =
      ((hiByte c ^^^ b).setWidth 16 <<< 8) ^^^ (loByte c).setWidth 16 := by
    rw [BitVec.setWidth_xor, BitVec.shiftLeft_xor_distrib]
    conv_lhs => rw [← hiByte_shiftLeft_xor_loByte c]
    ac_rfl
  unfold crcUpdateBitwise
  rw [hbytes, crcSteps_xor, crcSteps_lowByte, loByte_shiftLeft, BitVec.xor_comm]
  rfl

/-- R158 item 3, from any register: bytes are folded one part after the other. -/
theorem crcFrom_append (c : Half) (p q : List Byte) : crcFrom c (p ++ q) = crcFrom (crcFrom c p) q :=
  List.foldl_append

/-- R158 item 3. -/
theorem crcOf_append (p q : List Byte) : crcOf (p ++ q) = crcFrom (crcOf p) q := crcFrom_append _ p q

/-- R158 item 1: zero bytes have CRC 0. -/
theorem crcOf_replicate_zero (k : Nat) : crcOf (List.replicate k 0) = 0 := by
  unfold crcOf
  change crcFrom 0 _ = 0
  induction k with
  | zero => rfl
  | succ k ih => rwa [List.replicate_succ, crcFrom_cons, crcUpdate_zero]

/-- Taking in the register's own high byte leaves its low byte, shifted up. -/
theorem crcUpdate_hiByte (c : Half) : crcUpdate c (hiByte c) = c <<< 8 := by
  unfold crcUpdate
  rw [BitVec.xor_self]
  exact (congrArg _ crcTable_zero).trans BitVec.xor_zero

/-- R158 item 2, from any register: its own bytes, high byte first, bring it to 0. -/
theorem crcFrom_own_bytes (c : Half) : crcFrom c [hiByte c, loByte c] = 0 := by
  have hhi : hiByte (c <<< 8) = loByte c := by
    unfold hiByte loByte
    ext i hi
    simp [show 8 + i < 16 by omega, BitVec.getLsbD_eq_getElem (show i < 16 by omega)]
  have hz : c <<< 8 <<< 8 = 0 := by
    rw [← BitVec.shiftLeft_add]
    exact BitVec.shiftLeft_eq_zero (by omega)
  rw [crcFrom_cons, crcFrom_cons, crcFrom_nil, crcUpdate_hiByte, ← hhi, crcUpdate_hiByte, hz]

/-- R158 item 2: a sequence followed by its own CRC, high byte first, has CRC 0. -/
theorem crcOf_append_own_crc (p : List Byte) : crcOf (p ++ [hiByte (crcOf p), loByte (crcOf p)]) = 0 := by
  rw [crcOf_append, crcFrom_own_bytes]

/-- Settles O3. -/
theorem crcOfProperties : Obligations.CrcOfProperties := by
  refine ⟨crcOf_replicate_zero, fun k p => ?_, crcOf_append_own_crc, crcOf_append⟩
  rw [crcOf_append, crcOf_replicate_zero]
  rfl

/-- Settles O1, entry by entry. -/
theorem crcTableIsPrintedTable : Obligations.CrcTableIsPrintedTable := by
  unfold Obligations.CrcTableIsPrintedTable
  decide

end Sys2Proof.Machine
end

section
/-! PROOFS. The two commands of the host CRC engine (40_crc.md R155, R156). -/

namespace Sys2Proof.Machine

/-- The high byte of the register, as R152 shifts it down. -/
theorem truncate_ushiftRight_eq_hiByte (c : Half) : BitVec.truncate 8 (c >>> 8) = hiByte c := by
  unfold hiByte
  ext i hi
  simp [show i < 16 by omega]

theorem decodeCommand_crcInit {v : Word} (h : cmdOp v = 0x01) : decodeCommand v = .ok .crcInit := by
  unfold decodeCommand
  rw [h]
  rfl

theorem decodeCommand_crcByte {v : Word} (h : cmdOp v = 0x02) : decodeCommand v = .ok (.crcByte (cmdA8 v)) := by
  unfold decodeCommand
  rw [h]
  rfl

/-- Settles O4. -/
theorem crcCommandsUpdateHcrc : Obligations.CrcCommandsUpdateHcrc := by
  refine ⟨fun v hop => ?_, fun v hop => ?_, fun _ => rfl, fun s b => ?_⟩
  · have hdec := decodeCommand_crcInit hop
    exact ⟨hdec, fun s => (exec_hostWrite_cmd v s).trans (execute_of_ok hdec s)⟩
  · have hdec := decodeCommand_crcByte hop
    exact ⟨hdec, fun s => (exec_hostWrite_cmd v s).trans (execute_of_ok hdec s)⟩
  · rw [truncate_ushiftRight_eq_hiByte]
    rfl

end Sys2Proof.Machine
end

section
/-! PROOFS. A frame on the RX wire (42_decoder.md R222 to R231), with the CRC it carries right or wrong. -/

namespace Sys2Proof.Machine

/-- The two sync bytes start a frame, from either hunting state (R223, R224). -/
theorem State.rxByte_sync {s : State} (h : s.dstate.hunting) :
    [Config.sync1, Config.sync2].foldl (fun u b => u.rxByte b) s =
      { s with dfmt := 0, did := 0, didx := 0, dcrc := Config.crcPreset, dcrcx := 0, dstate := .readFormatHi } := by
  have hs1 : s.rxByte Config.sync1 = { s with dstate := .huntSync2 } := by
    rw [State.rxByte_hunting h fun _ => by decide, if_pos rfl]
  rw [List.foldl_cons, hs1]
  rfl

/-- The format word and the id (R225, R226): a frame without payload goes on to its CRC. -/
theorem State.rxByte_header {s : State} (h : s.dstate = .readFormatHi) (fw : Half) (id : Byte) :
    [hiByte fw, loByte fw, id].foldl (fun u b => u.rxByte b) s =
      { s with dfmt := fw, did := id, dstate := if fmtLen fw = 0 then .readCrcHi else .readPayload } := by
  simp [State.rxByte, h, State.rxFormatHi, State.rxFormatLo, State.rxId]

/-- The CRC (R228, R229): its second byte completes EMIT. -/
theorem State.rxByte_crc {s : State} (h : s.dstate = .readCrcHi) (c : Half) :
    [hiByte c, loByte c].foldl (fun u b => u.rxByte b) s = ({ s with dcrcx := c, dstate := .emit } : State).emit := by
  simp [State.rxByte, h, State.rxCrcHi, State.rxCrcLo]

/-- After the id, a payload of the length the format word says is buffered whole and folded into DCRC (R227). -/
theorem State.rxByte_wholePayload {s : State} {p : List Byte} (hidx : s.didx = 0)
    (hlen : p.length = (fmtLen s.dfmt).toNat)
    (hd : s.dstate = if fmtLen s.dfmt = 0 then .readCrcHi else .readPayload) :
    p.foldl (fun u b => u.rxByte b) s =
      { s with
        dbuf := s.dbuf.writeAll 0 p, dcrc := crcFrom s.dcrc p, didx := fmtLen s.dfmt, dstate := .readCrcHi } := by
  rcases eq_or_ne p [] with rfl | hp
  · have hzero : fmtLen s.dfmt = 0 := BitVec.eq_of_toNat_eq hlen.symm
    rw [hzero, if_pos rfl] at hd
    rw [hzero, ← hidx, ← hd]
    rfl
  · have hpos : fmtLen s.dfmt ≠ 0 := fun h => hp (List.length_eq_zero_iff.mp (by rw [hlen, h]; rfl))
    rw [if_neg hpos] at hd
    rw [State.rxByte_payload hp s hd (by simp [hidx, hlen]), hidx]
    rfl

/-- From the 0x90 of a sync, the bytes of a frame lead to EMIT of that frame (R225 to R229). -/
theorem State.rxByte_frameBody {s : State} {fw : Half} {p : List Byte} (hd : s.dstate = .readFormatHi)
    (hidx : s.didx = 0) (hlen : p.length = (fmtLen fw).toNat) (id : Byte) (c : Half) :
    ([hiByte fw, loByte fw, id] ++ p ++ [hiByte c, loByte c]).foldl (fun u b => u.rxByte b) s =
      ({ s with
          dfmt := fw, did := id, didx := fmtLen fw
          dbuf := s.dbuf.writeAll 0 p
          dcrc := crcFrom s.dcrc p, dcrcx := c, dstate := .emit } : State).emit := by
  rw [List.foldl_append, List.foldl_append, State.rxByte_header hd,
    State.rxByte_wholePayload (s := { s with dfmt := fw, did := id, dstate := _ }) hidx hlen rfl, State.rxByte_crc rfl]

/-- A hunting decoder that receives a frame, its CRC right or wrong, performs EMIT of it (R223 to R229). -/
theorem State.rxByte_frameBytes {s : State} {fw : Half} {p : List Byte} (hd : s.dstate.hunting)
    (hlen : p.length = (fmtLen fw).toNat) (id : Byte) (c : Half) :
    (frameBytes fw id p c).foldl (fun u b => u.rxByte b) s =
      ({ s with
          dfmt := fw, did := id, didx := fmtLen fw
          dbuf := s.dbuf.writeAll 0 p
          dcrc := crcOf p, dcrcx := c, dstate := .emit } : State).emit := by
  have hsplit : frameBytes fw id p c =
      [Config.sync1, Config.sync2] ++ ([hiByte fw, loByte fw, id] ++ p ++ [hiByte c, loByte c]) := rfl
  rw [hsplit, List.foldl_append, State.rxByte_sync hd, State.rxByte_frameBody rfl rfl hlen]
  rfl

/-- `gen_token` leaves the receive queues, INTEGRITY_ERR and the counters of received frames as they are. -/
theorem State.genToken_frame (k : TokenRecord) (s : State) :
    (s.genToken k).rxq = s.rxq ∧ (s.genToken k).evtPend.getLsbD 1 = s.evtPend.getLsbD 1 ∧
      (s.genToken k).cnt.integ = s.cnt.integ ∧ (s.genToken k).cnt.rxok = s.cnt.rxok ∧
      (s.genToken k).cnt.rxovf = s.cnt.rxovf := by
  rw [State.genToken_eq]
  split_ifs <;> simp [Evt.count, Evt.flag, Evt.bit]

/-- `integrity_error` raises INTEGRITY_ERR once, and delivers and drops nothing (R231). -/
theorem State.integrityError_effect (t : BitVec 4) (len : BitVec 12) (s : State) :
    (s.integrityError t len).rxq = s.rxq ∧ (s.integrityError t len).evtPend.getLsbD 1 = true ∧
      (s.integrityError t len).cnt.integ = satInc s.cnt.integ ∧ (s.integrityError t len).cnt.rxok = s.cnt.rxok ∧
      (s.integrityError t len).cnt.rxovf = s.cnt.rxovf := by
  simp only [State.integrityError]
  split_ifs
  · simp [State.genToken_frame, Evt.count, Evt.flag, Evt.bit]
  · simp [Evt.count, Evt.flag, Evt.bit]

/-- EMIT of a frame whose CRC is wrong is an integrity error, and the decoder hunts for sync again (R230). -/
theorem State.emit_of_crc_ne {s : State} (h : s.dcrc ≠ s.dcrcx) :
    s.emit.rxq = s.rxq ∧ s.emit.dstate = .huntSync1 ∧ s.emit.evtPend.getLsbD 1 = true ∧
      s.emit.cnt.integ = satInc s.cnt.integ ∧ s.emit.cnt.rxok = s.cnt.rxok ∧ s.emit.cnt.rxovf = s.cnt.rxovf := by
  obtain ⟨hrxq, hevt, hcnt⟩ := s.integrityError_effect (fmtType s.dfmt) (fmtLen s.dfmt)
  unfold State.emit State.emitFrame
  rw [if_neg h]
  exact ⟨hrxq, rfl, hevt, hcnt⟩

end Sys2Proof.Machine
end

section
/-! PROOFS. A corrupted frame on the RX wire (40_crc.md R159): one changed byte changes the CRC. -/

namespace Sys2Proof.Machine

/-- A list of at least two bytes is a payload followed by a CRC. -/
theorem exists_payload_append_crc {q : List Byte} {n : Nat} (h : q.length = n + 2) :
    ∃ p c, p.length = n ∧ q = p ++ [hiByte c, loByte c] := by
  obtain ⟨hi, lo, htail⟩ := List.length_eq_two.mp (show (q.drop n).length = 2 by rw [List.length_drop]; omega)
  refine ⟨q.take n, halfOf hi lo, by rw [List.length_take]; omega, ?_⟩
  rw [hiByte_halfOf, loByte_halfOf, ← htail, List.take_append_drop]

/-- Storing another byte in a sequence changes its fold. -/
theorem crcFrom_set_ne {q : List Byte} {i : Nat} {b : Byte} (c : Half) (hi : i < q.length) (hb : b ≠ q.getD i 0) :
    crcFrom c (q.set i b) ≠ crcFrom c q := by
  induction q generalizing c i with
  | nil => exact absurd hi (Nat.not_lt_zero i)
  | cons a q ih =>
    cases i with
    | zero => exact fun h => hb (crcUpdate_right_injective (crcFrom_left_injective h))
    | succ i => exact ih (crcUpdate c a) (Nat.lt_of_succ_lt_succ hi) hb

/-- With one byte of payload or CRC changed, an encoded frame is one that carries a wrong CRC: payload and CRC together no
longer fold to 0. -/
theorem encodeFrame_set_eq_frameBytes {t : BitVec 4} {id : Byte} {p : List Byte} {i : Nat} {b : Byte}
    (hi : i < p.length + 2) (hb : b ≠ (encodeFrame t id p).getD (5 + i) 0) :
    ∃ p' c', p'.length = p.length ∧ crcOf p' ≠ c' ∧
      (encodeFrame t id p).set (5 + i) b = frameBytes (formatWord t (BitVec.ofNat 12 p.length)) id p' c' := by
  rw [Nat.add_comm 5 i] at hb ⊢
  have hb : b ≠ (p ++ [hiByte (crcOf p), loByte (crcOf p)]).getD i 0 := hb
  obtain ⟨p', c', hlen, hq⟩ := exists_payload_append_crc (n := p.length)
    (q := (p ++ [hiByte (crcOf p), loByte (crcOf p)]).set i b) (by simp)
  refine ⟨p', c', hlen, fun hcrc => ?_, ?_⟩
  · have hne := crcFrom_set_ne Config.crcPreset (by simpa using hi) hb
    rw [hq, ← hcrc] at hne
    exact hne ((crcOf_append_own_crc p').trans (crcOf_append_own_crc p).symm)
  · let fw := formatWord t (BitVec.ofNat 12 p.length)
    exact congrArg ([Config.sync1, Config.sync2, hiByte fw, loByte fw, id] ++ ·) hq

/-- Flipping a bit of a byte changes it. -/
theorem xor_bit_ne (b : Byte) {j : Nat} (hj : j < 8) : b ^^^ (1#8 <<< j) ≠ b := by
  intro h
  have hbit := congrArg (·.getLsbD j) h
  simp [hj] at hbit

/-- Settles O33: a flipped bit leaves a frame with a wrong CRC, and EMIT of such a frame is an integrity error. -/
theorem singleBitFlipRejected : Obligations.SingleBitFlipRejected := by
  intro s t id p i j hd hp hi hj
  obtain ⟨p', c', hlen, hcrc, hframe⟩ := encodeFrame_set_eq_frameBytes hi (xor_bit_ne _ hj)
  have hfw : p'.length = (fmtLen (formatWord t (BitVec.ofNat 12 p.length))).toNat := by
    rw [fmtLen_formatWord, BitVec.toNat_ofNat, hlen, Nat.mod_eq_of_lt (by omega)]
  refine ⟨_, perform_rx _ s, ?_⟩
  rw [hframe, State.rxByte_frameBytes hd hfw]
  exact State.emit_of_crc_ne hcrc

end Sys2Proof.Machine
end

section
/-! PROOFS. The commands of the encoder (41_encoder_mux.md R184, R186): TX_SEND and TX_CANCEL. -/

namespace Sys2Proof.Machine

/-- A write of a command word to CMD is its command (R308). -/
theorem exec_hostWrite_cmd_of_ok {v : Word} {i : Instr} (h : decodeCommand v = .ok i) (s : State) :
    exec (.hostWrite 0x010 v) s = exec i s :=
  (exec_hostWrite_cmd v s).trans (execute_of_ok h s)

theorem decodeCommand_txSend {v : Word} (h : cmdOp v = 0x10) : decodeCommand v = .ok (.txSend (v.getLsbD 8)) := by
  unfold decodeCommand
  rw [h, ← cmdA8_getLsbD_zero]
  rfl

theorem decodeCommand_txCancel {v : Word} (h : cmdOp v = 0x11) : decodeCommand v = .ok .txCancel := by
  unfold decodeCommand
  rw [h]
  rfl

/-- TX_SEND with a frame staged. -/
theorem execTxSend_staged {s : State} (h : s.txStaged = true) (a : Bool) : execTxSend a s = .next (s.raise .reject) :=
  if_pos h

/-- TX_CANCEL of a staged frame that has not started. -/
theorem execTxCancel_waiting {s : State} (hst : s.txStaged = true) (hsrc : s.txsrc ≠ .host) :
    execTxCancel s = .next { s with txStaged := false } :=
  if_pos ⟨hst, hsrc⟩

/-- TX_CANCEL with nothing staged, or with the staged frame in transmission. -/
theorem execTxCancel_refused {s : State} (h : s.txStaged = false ∨ s.txsrc = .host) :
    execTxCancel s = .next (s.raise .reject) :=
  if_neg fun ⟨hst, hsrc⟩ => h.elim (by simp [hst]) hsrc

/-- Settles O7: R184's three cases are the branches of the meaning, TYPE and LEN cut to their fields. -/
theorem txSendStagesFrame : Obligations.TxSendStagesFrame := by
  refine ⟨fun v hop => ?_, fun s a =>
    ⟨fun hst => execTxSend_staged hst a, fun hst hbad => ?_, fun hst htype hlen => ?_⟩⟩
  · have hdec := decodeCommand_txSend hop
    exact ⟨hdec, exec_hostWrite_cmd_of_ok hdec⟩
  · exact (if_neg (by simp [hst])).trans (if_pos hbad)
  · have htype4 : s.txHdr.type.setWidth 4 = s.txHdr.type.extractLsb' 0 4 := BitVec.setWidth_eq_extractLsb' (by omega)
    have hlen12 : s.txHdr.len.setWidth 12 = s.txHdr.len.extractLsb' 0 12 := BitVec.setWidth_eq_extractLsb' (by omega)
    rw [← htype4, ← hlen12]
    exact (if_neg (by simp [hst])).trans (if_neg (not_or.mpr ⟨htype.not_gt, hlen.not_gt⟩))

/-- Settles O8: the two cases are the branches of the meaning. -/
theorem txCancelUnstages : Obligations.TxCancelUnstages := by
  refine ⟨fun v hop => ?_, fun s => ⟨execTxCancel_waiting, execTxCancel_refused⟩⟩
  have hdec := decodeCommand_txCancel hop
  exact ⟨hdec, exec_hostWrite_cmd_of_ok hdec⟩

end Sys2Proof.Machine
end

section
/-! PROOFS. The bytes of an encoded frame (41_encoder_mux.md R182). -/

namespace Sys2Proof.Machine

/-- The low byte of a half word, by truncation. -/
theorem truncate_eq_loByte (w : Half) : BitVec.truncate 8 w = loByte w :=
  BitVec.setWidth_eq_extractLsb' (by omega)

/-- R102: the format word as shifted type and length. -/
theorem formatWord_ofNat_eq_or (t : BitVec 4) {n : Nat} (hn : n < 2 ^ 12) :
    formatWord t (BitVec.ofNat 12 n) = (t.setWidth 16 <<< 12) ||| BitVec.ofNat 16 n := by
  unfold formatWord
  apply BitVec.eq_of_getLsbD_eq
  intro i hi
  rw [BitVec.getLsbD_append, BitVec.getLsbD_or, BitVec.getLsbD_ofNat, BitVec.getLsbD_ofNat]
  rcases Nat.lt_or_ge i 12 with h | h
  · simp [h, show i < 16 by omega]
  · have hbit : n.testBit i = false := Nat.testBit_lt_two_pow (hn.trans_le (Nat.pow_le_pow_right (by omega) h))
    simp [hbit, h.not_gt, show i < 16 by omega]

/-- Settles O13: `frameBytes` with the format word and the CRC cut to bytes by shifts. -/
theorem encodedFrameLayout : Obligations.EncodedFrameLayout := by
  refine ⟨fun t id p hp => ⟨length_frameBytes _ id p _, _, rfl, ?_⟩, fun _ _ _ => rfl, fun _ _ _ => rfl⟩
  rw [← formatWord_ofNat_eq_or t (by omega), truncate_ushiftRight_eq_hiByte, truncate_eq_loByte,
    truncate_ushiftRight_eq_hiByte, truncate_eq_loByte]
  rfl

end Sys2Proof.Machine
end

section
/-! PROOFS. An encoded frame is received (42_decoder.md R230, 43_demux_tokens.md R261, R262, R266; 41_encoder_mux.md R197). -/

namespace Sys2Proof.Machine

/-- The flag of an event has the event's bit alone (60_exceptions.md R340). -/
theorem Evt.flag_getLsbD (e : Evt) (i : Nat) : e.flag.getLsbD i = decide (e.bit = i) := by
  have hbit : e.bit < 8 := by cases e <;> decide
  exact (BitVec.getLsbD_twoPow e.bit i).trans (by simp [hbit])

/-! `gen_token` raises TOK_OVF alone, and touches no register but TOKQ. -/

section
variable (k : TokenRecord) (s : State)

@[simp] theorem State.genToken_rxq : (s.genToken k).rxq = s.rxq := by rw [State.genToken_eq]
@[simp] theorem State.genToken_errInfo : (s.genToken k).errInfo = s.errInfo := by rw [State.genToken_eq]
@[simp] theorem State.genToken_errCrc : (s.genToken k).errCrc = s.errCrc := by rw [State.genToken_eq]

theorem State.genToken_cnt : (s.genToken k).cnt = { s.cnt with tokdrop := (s.genToken k).cnt.tokdrop } := by
  rw [State.genToken_eq]
  split_ifs <;> rfl

theorem State.genToken_evtPend_getLsbD {i : Nat} (hi : i ≠ Evt.tokOvf.bit) :
    (s.genToken k).evtPend.getLsbD i = s.evtPend.getLsbD i := by
  rw [State.genToken_eq]
  split_ifs
  · rfl
  · simp [Evt.flag_getLsbD, hi.symm]
end

/-- Delivery, to a channel with room or to a full one, is no integrity error and no decode error. -/
theorem State.deliver_keeps_errors (r : FrameRecord) (s : State) :
    (s.deliver r).errInfo = s.errInfo ∧ (s.deliver r).errCrc = s.errCrc ∧ (s.deliver r).cnt.integ = s.cnt.integ ∧
      (s.deliver r).cnt.decerr = s.cnt.decerr := by
  rcases lt_or_ge s.rxq[channel r.type].length s.params.rxqDepth with h | h
  · rw [State.deliver_room h]
    split_ifs
    · rw [State.genToken_cnt]
      exact ⟨State.genToken_errInfo _ _, State.genToken_errCrc _ _, rfl, rfl⟩
    · exact ⟨rfl, rfl, rfl, rfl⟩
  · rw [State.deliver_full h]
    exact ⟨rfl, rfl, rfl, rfl⟩

/-- A frame delivered to a channel with room is at its tail, with RX_FRAME raised and counted once (R261, R266). -/
theorem State.deliver_room_effect {r : FrameRecord} {s : State}
    (h : s.rxq[channel r.type].length < s.params.rxqDepth) :
    (s.deliver r).rxq = s.rxq.set (channel r.type) (s.rxq[channel r.type] ++ [r]) ∧
      (s.deliver r).evtPend.getLsbD 0 = true ∧ (s.deliver r).cnt.rxok = satInc s.cnt.rxok ∧
      (s.deliver r).cnt.rxovf = s.cnt.rxovf := by
  have hbit : ((s.pushRx (channel r.type) r).raise .rxFrame).evtPend.getLsbD 0 = true := by
    simp [Evt.flag_getLsbD, Evt.bit]
  rw [State.deliver_room h]
  split_ifs
  · rw [State.genToken_rxq, State.genToken_evtPend_getLsbD _ _ (by decide), State.genToken_cnt]
    exact ⟨rfl, hbit, rfl, rfl⟩
  · exact ⟨rfl, hbit, rfl, rfl⟩

/-- A frame for a full channel is dropped, with RX_OVF raised and counted once (R262). -/
theorem State.deliver_full_effect {r : FrameRecord} {s : State}
    (h : s.params.rxqDepth ≤ s.rxq[channel r.type].length) :
    (s.deliver r).rxq = s.rxq ∧ (s.deliver r).tokq = s.tokq ∧ (s.deliver r).evtPend.getLsbD 3 = true ∧
      (s.deliver r).cnt.rxok = s.cnt.rxok ∧ (s.deliver r).cnt.rxovf = satInc s.cnt.rxovf := by
  rw [State.deliver_full h]
  exact ⟨rfl, rfl, by simp [Evt.flag_getLsbD, Evt.bit], rfl, rfl⟩

/-- EMIT of a frame whose CRC is right delivers it, and the decoder hunts for sync again (R230). -/
theorem State.emit_of_crc_eq {s : State} (h : s.dcrc = s.dcrcx) :
    s.emit = { s.deliver (s.received (fmtType s.dfmt) (fmtLen s.dfmt)) with dstate := .huntSync1 } := by
  unfold State.emit State.emitFrame
  rw [if_pos h]

/-- A payload buffered from index 0 on is what DBUF holds below its length. -/
theorem Mem.slice_writeAll_zero {m : Mem} (hm : m.wf) {p : List Byte} (hp : p.length ≤ Config.maxPayload) :
    (m.writeAll 0 p).slice p.length = p := by
  simpa using (Mem.slice_writeAll hm p 0 (by omega)).2

/-- The record of a frame with its CRC right (10_state.md R36). -/
def FrameRecord.encoded (t : BitVec 4) (id : Byte) (p : List Byte) : FrameRecord :=
  ⟨t, id, BitVec.ofNat 12 p.length, p, crcOf p⟩

/-- `s` with its decoder at EMIT of an encoded frame. -/
def State.holdingFrame (t : BitVec 4) (id : Byte) (p : List Byte) (s : State) : State :=
  { s with
    dfmt := formatWord t (BitVec.ofNat 12 p.length), did := id, didx := BitVec.ofNat 12 p.length
    dbuf := s.dbuf.writeAll 0 p
    dcrc := crcOf p, dcrcx := crcOf p, dstate := .emit }

/-- R197 as one equation: a hunting decoder that receives an encoded frame delivers its record and hunts for sync again. -/
theorem State.rxByte_encodeFrame {s : State} (hwf : s.dbuf.wf) (hd : s.dstate.hunting) (t : BitVec 4) (id : Byte)
    {p : List Byte} (hp : p.length ≤ Config.maxPayload) :
    (encodeFrame t id p).foldl (fun u b => u.rxByte b) s =
      { (s.holdingFrame t id p).deliver (FrameRecord.encoded t id p) with dstate := .huntSync1 } := by
  have hlen : (BitVec.ofNat 12 p.length).toNat = p.length := by
    rw [BitVec.toNat_ofNat, Nat.mod_eq_of_lt (show p.length < 4096 from Nat.lt_succ_of_le hp)]
  have hrec : (s.holdingFrame t id p).received t (BitVec.ofNat 12 p.length) = FrameRecord.encoded t id p := by
    simp only [State.received, State.holdingFrame, hlen, Mem.slice_writeAll_zero hwf hp, FrameRecord.encoded]
  unfold encodeFrame
  rw [State.rxByte_frameBytes hd (by rw [fmtLen_formatWord, hlen]), State.emit_of_crc_eq rfl, fmtType_formatWord,
    fmtLen_formatWord, ← hrec]
  rfl

/-- Settles O31: the frame is delivered (R197), with what a delivery does to a channel with room and to a full one. -/
theorem encodedFrameIsReceived : Obligations.EncodedFrameIsReceived := by
  intro s t id p hwf hd hp
  let u := s.holdingFrame t id p
  let r := FrameRecord.encoded t id p
  refine ⟨_, perform_rx _ s, ?_⟩
  rw [State.rxByte_encodeFrame hwf hd t id hp]
  obtain ⟨hinfo, hcrc, hinteg, hdecerr⟩ := u.deliver_keeps_errors r
  exact ⟨rfl, hinfo, hcrc, hinteg, hdecerr, State.deliver_room_effect (s := u) (r := r),
    State.deliver_full_effect (s := u) (r := r)⟩

end Sys2Proof.Machine
end

section
/-! PROOFS. A staged frame is locked (41_encoder_mux.md R185): what changes TXBUF, TX_HDR and TX_SNAP while it stays staged. -/

namespace Sys2Proof.Machine

/-- The elements that hold the staged frame: TXBUF, TX_HDR and TX_SNAP. -/
def State.stagedFrame (s : State) : Mem × TxHdr × TxSnap := (s.txbuf, s.txHdr, s.txSnap)

theorem State.stagedFrame_eq_iff {s : State} {m : Mem} {h : TxHdr} {n : TxSnap} :
    s.stagedFrame = (m, h, n) ↔ s.txbuf = m ∧ s.txHdr = h ∧ s.txSnap = n := by
  simp [State.stagedFrame]

/-- A meaning that leaves a staged frame as it is, or unstages it. -/
def LocksStaged (f : State → Result) : Prop :=
  ∀ s t, s.txStaged = true → f s = .next t → t.txStaged = true → t.stagedFrame = s.stagedFrame

/-- What leaves the three elements in every state locks a staged frame. -/
theorem LocksStaged.of_next {f : State → State} (h : ∀ s, (f s).stagedFrame = s.stagedFrame) :
    LocksStaged fun s => .next (f s) := by
  intro s t _ hrun _
  cases hrun
  exact h s

/-! The receiver does not touch the staged frame. -/

theorem State.genToken_stagedFrame (k : TokenRecord) (s : State) : (s.genToken k).stagedFrame = s.stagedFrame := by
  rw [State.genToken_eq]
  rfl

theorem State.emitFrame_stagedFrame (t : BitVec 4) (len : BitVec 12) (s : State) :
    (s.emitFrame t len).stagedFrame = s.stagedFrame := by
  obtain ⟨_, _, _, _, _, _, heq, -⟩ := s.emitFrame_cases t len
  rw [heq]
  rfl

theorem State.rxHunt1_stagedFrame (b : Byte) (s : State) : (s.rxHunt1 b).stagedFrame = s.stagedFrame := by
  unfold State.rxHunt1
  split_ifs <;> rfl

theorem State.rxHunt2_stagedFrame (b : Byte) (s : State) : (s.rxHunt2 b).stagedFrame = s.stagedFrame := by
  unfold State.rxHunt2
  split_ifs <;> rfl

theorem State.rxByte_stagedFrame (b : Byte) (s : State) : (s.rxByte b).stagedFrame = s.stagedFrame := by
  unfold State.rxByte
  split
  case h_1 => exact s.rxHunt1_stagedFrame b
  case h_2 => exact s.rxHunt2_stagedFrame b
  case h_8 => exact (s.rxCrcLo b).emitFrame_stagedFrame _ _
  case h_9 => exact (s.emit.rxHunt1_stagedFrame b).trans (s.emitFrame_stagedFrame _ _)
  all_goals rfl

/-! The commands and the host port refuse to touch it. -/

theorem execTxSend_locksStaged (a : Bool) : LocksStaged (execTxSend a) := by
  intro s t hst hrun _
  cases (execTxSend_staged hst a).symm.trans hrun
  rfl

theorem execTxCancel_locksStaged : LocksStaged execTxCancel := by
  intro s t hst hrun hst'
  rcases eq_or_ne s.txsrc .host with hsrc | hsrc
  · cases (execTxCancel_refused (.inr hsrc)).symm.trans hrun
    rfl
  · cases (execTxCancel_waiting hst hsrc).symm.trans hrun
    cases hst'

theorem execRxPop_locksStaged (c : Byte) : LocksStaged (execRxPop c) := by
  intro s t _ hrun _
  unfold execRxPop at hrun
  split at hrun
  · cases hrun
    rfl
  · split_ifs at hrun <;> cases hrun <;> rfl

theorem execDecAbort_locksStaged : LocksStaged execDecAbort := by
  refine .of_next fun s => ?_
  split_ifs <;> rfl

theorem execHostRead_locksStaged (off : Half) : LocksStaged (execHostRead off) := by
  refine .of_next fun s => ?_
  cases target off <;> rfl

/-- The commands, the frame types and the function bytes, and every event but a pull and a host write. -/
theorem exec_locksStaged_of_ne {i : Instr} (hpull : i ≠ .txPull) (hwrite : ∀ off v, i ≠ .hostWrite off v) :
    LocksStaged (exec i) := by
  cases i with
  | txPull => exact absurd rfl hpull
  | hostWrite off v => exact absurd rfl (hwrite off v)
  | txSend a => exact execTxSend_locksStaged a
  | txCancel => exact execTxCancel_locksStaged
  | rxPop c => exact execRxPop_locksStaged c
  | decAbort => exact execDecAbort_locksStaged
  | tokAck e => exact .of_next (State.genToken_stagedFrame _)
  | tokNack e r => exact .of_next (State.genToken_stagedFrame _)
  | hostRead off => exact execHostRead_locksStaged off
  | reset =>
    intro s t _ hrun hst
    cases hrun
    cases hst
  | nop | crcInit | crcByte _ | rxqClear | tokClear | cntClear => exact .of_next fun _ => rfl
  | rxByte _ | fnSetBaudRate | fnSetAckTimeout | fnTransmitToken | fnQueryFile | fnQueryFileCrc | fnReceiveFile
  | fnTransmitFile => exact .of_next (State.rxByte_stagedFrame _)
  | _ => exact .of_next (State.emitFrame_stagedFrame _ _)

/-- A command word names a command, no event. -/
theorem decodeCommand_ok_ne {v : Word} {i : Instr} (h : decodeCommand v = .ok i) :
    i ≠ .txPull ∧ ∀ off w, i ≠ .hostWrite off w := by
  unfold decodeCommand at h
  split at h <;> cases h <;> exact ⟨nofun, nofun⟩

theorem execute_locksStaged (v : Word) : LocksStaged (execute v) := by
  cases h : decodeCommand v with
  | error e => exact funext (execute_of_error h) ▸ .of_next fun _ => rfl
  | ok i =>
    obtain ⟨hpull, hwrite⟩ := decodeCommand_ok_ne h
    exact funext (execute_of_ok h) ▸ exec_locksStaged_of_ne hpull hwrite

theorem writeReg_locksStaged (r : Reg) (v : Word) : LocksStaged (writeReg r v) := by
  cases r with
  | cmd => exact execute_locksStaged v
  | txHdr =>
    intro s t hst hrun _
    cases (if_pos hst).symm.trans hrun
    rfl
  | _ => exact .of_next fun _ => rfl

theorem execHostWrite_locksStaged (off : Half) (v : Word) : LocksStaged (execHostWrite off v) := by
  intro s t hst hrun hst'
  rcases execHostWrite_cases off v s with h | ⟨i, -, hunstaged, -⟩ | ⟨r, -, h⟩
  · cases h.symm.trans hrun
    rfl
  · rw [hst] at hunstaged
    cases hunstaged
  · exact writeReg_locksStaged r v s t hst (h.symm.trans hrun) hst'

/-- Every instruction but a TX_PULL. -/
theorem exec_locksStaged {i : Instr} (hpull : i ≠ .txPull) : LocksStaged (exec i) := by
  by_cases hwrite : ∃ off v, i = .hostWrite off v
  · obtain ⟨off, v, rfl⟩ := hwrite
    exact execHostWrite_locksStaged off v
  · push Not at hwrite
    exact exec_locksStaged_of_ne hpull hwrite

/-! A pull. -/

theorem State.finishFrame_stagedFrame (s : State) : s.finishFrame.stagedFrame = s.stagedFrame := by
  unfold State.finishFrame
  cases s.txsrc <;> rfl

theorem State.sendByte_stagedFrame (s : State) : s.sendByte.stagedFrame = s.stagedFrame := by
  rcases s.sendByte_cases with ⟨-, h⟩ | ⟨b, -, -, h⟩ | ⟨b, -, -, h⟩ <;> rw [h]
  · rfl
  · exact State.finishFrame_stagedFrame { s with txpos := s.txpos + 1 }
  · rfl

/-- A host frame that is still staged after a byte is still in transmission. -/
theorem State.sendByte_txsrc_of_txStaged {s : State} (hsrc : s.txsrc = .host) (hst : s.sendByte.txStaged = true) :
    s.sendByte.txsrc = .host := by
  rcases s.sendByte_cases with ⟨-, h⟩ | ⟨b, -, -, h⟩ | ⟨b, -, -, h⟩ <;> rw [h] at hst ⊢
  · exact hsrc
  · simp [State.finishFrame, hsrc] at hst
  · exact hsrc

/-- The ids of a staged frame as it starts: NEXT_ID for an automatic one (R191). -/
theorem State.startHost_stagedFrame (s : State) :
    s.startHost.stagedFrame =
      if s.txSnap.autoid = true then
        (s.txbuf, { s.txHdr with id := s.nextId }, { s.txSnap with id := s.nextId })
      else s.stagedFrame := by
  unfold State.startHost
  split_ifs <;> rfl

theorem State.startHost_txsrc (s : State) : s.startHost.txsrc = .host := by
  unfold State.startHost
  split_ifs <;> rfl

/-- A pull after which the frame is still staged leaves it, or has started it with an automatic id. -/
theorem execTxPull_stagedFrame {s t : State} (hrun : execTxPull s = .next t) (hst : t.txStaged = true) :
    t.stagedFrame = s.stagedFrame ∨
      (s.txSnap.autoid = true ∧ s.txsrc = .none ∧ t.txsrc = .host ∧
        t.stagedFrame = (s.txbuf, { s.txHdr with id := s.nextId }, { s.txSnap with id := s.nextId })) := by
  unfold execTxPull at hrun
  rcases s.selectFrame_cases with ⟨-, h⟩ | ⟨k, rest, -, -, h⟩ | ⟨hsrc, -, -, h⟩ | ⟨-, -, -, h⟩ <;>
    rw [h] at hrun <;> cases hrun
  · exact .inl s.sendByte_stagedFrame
  · exact .inl (s.startToken k rest).sendByte_stagedFrame
  · have hframe := s.startHost.sendByte_stagedFrame.trans s.startHost_stagedFrame
    split_ifs at hframe with hauto
    · exact .inr ⟨hauto, hsrc, State.sendByte_txsrc_of_txStaged s.startHost_txsrc hst, hframe⟩
    · exact .inl hframe
  · exact .inl rfl

/-- Settles O18: no instruction but a TX_PULL touches the staged frame, and that one only its ids, as it starts. -/
theorem stagedFrameIsLocked : Obligations.StagedFrameIsLocked := by
  intro i s t hst hrun hst'
  have hcases : t.stagedFrame = s.stagedFrame ∨
      (s.txSnap.autoid = true ∧ i = .txPull ∧ s.txsrc = .none ∧ t.txsrc = .host ∧
        t.stagedFrame = (s.txbuf, { s.txHdr with id := s.nextId }, { s.txSnap with id := s.nextId })) := by
    by_cases hpull : i = .txPull
    · subst hpull
      exact (execTxPull_stagedFrame hrun hst').imp_right fun ⟨hauto, hstart⟩ => ⟨hauto, rfl, hstart⟩
    · exact .inl (exec_locksStaged hpull s t hst hrun hst')
  rcases hcases with hframe | ⟨hauto, hpull, hsrc, hsrc', hframe⟩ <;>
    obtain ⟨hbuf, hhdr, hsnap⟩ := State.stagedFrame_eq_iff.mp hframe
  · simp [hbuf, hhdr, hsnap]
  · simp [hbuf, hhdr, hsnap, hauto, hpull, hsrc, hsrc']

end Sys2Proof.Machine
end

section
/-! PROOFS. An RX byte, state by state of the decoder (42_decoder.md R222 to R229), and DEC_ABORT (R233). -/

namespace Sys2Proof.Machine

/-! The rule of each state (R222). -/

section
variable {s : State} (b : Byte)

theorem State.rxByte_of_huntSync1 (h : s.dstate = .huntSync1) : s.rxByte b = s.rxHunt1 b := by
  simp only [State.rxByte, h]

theorem State.rxByte_of_huntSync2 (h : s.dstate = .huntSync2) : s.rxByte b = s.rxHunt2 b := by
  simp only [State.rxByte, h]

theorem State.rxByte_of_readFormatHi (h : s.dstate = .readFormatHi) : s.rxByte b = s.rxFormatHi b := by
  simp only [State.rxByte, h]

theorem State.rxByte_of_readFormatLo (h : s.dstate = .readFormatLo) : s.rxByte b = s.rxFormatLo b := by
  simp only [State.rxByte, h]

theorem State.rxByte_of_readId (h : s.dstate = .readId) : s.rxByte b = s.rxId b := by
  simp only [State.rxByte, h]

theorem State.rxByte_of_readPayload (h : s.dstate = .readPayload) : s.rxByte b = s.rxPayload b := by
  simp only [State.rxByte, h]

theorem State.rxByte_of_readCrcHi (h : s.dstate = .readCrcHi) : s.rxByte b = s.rxCrcHi b := by
  simp only [State.rxByte, h]

theorem State.rxByte_of_readCrcLo (h : s.dstate = .readCrcLo) : s.rxByte b = (s.rxCrcLo b).emit := by
  simp only [State.rxByte, h]
end

/-- RX_BYTE completes with the state `rxByte` leads to. -/
theorem exec_rxByte_of_eq {s t : State} {b : Byte} (h : s.rxByte b = t) : exec (.rxByte b) s = .next t :=
  congrArg Host.Outcome.next h

/-- Settles O20: the two hunting states branch on the byte, READ_ID on the length; the other rules have one case. -/
theorem rxByteBeforePayload : Obligations.RxByteBeforePayload := by
  intro s b
  refine ⟨fun hd hb => ?_, fun hd hb => ?_, fun hd hb => ?_, fun hd hb => ?_, fun hd h90 hEB => ?_,
    fun hd => ?_, fun hd => ?_, fun hd hlen => ?_, fun hd hlen => ?_⟩ <;> apply exec_rxByte_of_eq
  · exact (State.rxByte_of_huntSync1 b hd).trans (if_pos hb)
  · exact (State.rxByte_of_huntSync1 b hd).trans (if_neg hb)
  · exact (State.rxByte_of_huntSync2 b hd).trans (if_pos hb)
  · have h90 : b ≠ Config.sync2 := hb ▸ by decide
    exact (State.rxByte_of_huntSync2 b hd).trans ((if_neg h90).trans (if_pos hb))
  · exact (State.rxByte_of_huntSync2 b hd).trans ((if_neg h90).trans (if_neg hEB))
  · exact State.rxByte_of_readFormatHi b hd
  · exact State.rxByte_of_readFormatLo b hd
  · exact (State.rxByte_of_readId b hd).trans (congrArg ({ s with did := b, dstate := · }) (if_pos hlen))
  · exact (State.rxByte_of_readId b hd).trans (congrArg ({ s with did := b, dstate := · }) (if_neg hlen))

/-- Settles O21: DBUF after the byte is DBUF written at DIDX, an index it has. -/
theorem rxBytePayloadAndCrcHigh : Obligations.RxBytePayloadAndCrcHigh := by
  intro s b
  refine ⟨fun hd hwf hidx => ?_, fun hd => exec_rxByte_of_eq (State.rxByte_of_readCrcHi b hd)⟩
  exact ⟨s.rxPayload b, exec_rxByte_of_eq (State.rxByte_of_readPayload b hd), rfl,
    fun j => Mem.read_write hwf hidx j b⟩

/-! DEC_ABORT. -/

theorem decodeCommand_decAbort {v : Word} (h : cmdOp v = 0x22) : decodeCommand v = .ok .decAbort := by
  unfold decodeCommand
  rw [h]
  rfl

/-- DEC_ABORT of a partial frame. -/
theorem execDecAbort_inFrame {s : State} (h : s.dstate.inFrame = true) :
    execDecAbort s = .next { s.raise .decodeErr with dstate := .huntSync1 } := by
  unfold execDecAbort
  rw [if_pos h]

/-- DEC_ABORT with no frame begun. -/
theorem execDecAbort_not_inFrame {s : State} (h : s.dstate.inFrame = false) :
    execDecAbort s = .next { s with dstate := .huntSync1 } := by
  unfold execDecAbort
  rw [h]
  rfl

/-- Settles O11: a frame has begun in the states R233 lists, and in neither hunting state. -/
theorem decAbortReturnsToHunt : Obligations.DecAbortReturnsToHunt := by
  have hpartial : ∀ d ∈ [DState.readFormatHi, .readFormatLo, .readId, .readPayload, .readCrcHi, .readCrcLo],
      d.inFrame = true := by decide
  have hhunt : ∀ d ∈ [DState.huntSync1, .huntSync2], d.inFrame = false := by decide
  refine ⟨fun v hop => ?_, fun s => ⟨fun hd => execDecAbort_inFrame (hpartial _ hd),
    fun hd => execDecAbort_not_inFrame (hhunt _ hd)⟩⟩
  have hdec := decodeCommand_decAbort hop
  exact ⟨hdec, exec_hostWrite_cmd_of_ok hdec⟩

end Sys2Proof.Machine
end

section
/-! PROOFS. EMIT, whole (42_decoder.md R230, R231; 43_demux_tokens.md R261, R262, R266, R267): the three outcomes of a frame's
last byte. -/

namespace Sys2Proof.Machine

/-- The fields of ERR_INFO (10_state.md R50) as shifted values, bit by bit. -/
theorem errInfo_eq_or (t : BitVec 4) (len : BitVec 12) (id : Byte) :
    (0#4 ++ (len ++ (id ++ (0#4 ++ t))) : Word) =
      (len.setWidth 32 <<< 16) ||| (id.setWidth 32 <<< 8) ||| t.setWidth 32 := by
  apply BitVec.eq_of_getLsbD_eq
  simp only [BitVec.getLsbD_append, BitVec.getLsbD_or, BitVec.getLsbD_shiftLeft, BitVec.getLsbD_setWidth]
  grind

/-- The fields of ERR_CRC (10_state.md R50) as shifted values, bit by bit. -/
theorem errCrc_eq_or (c x : Half) : (c ++ x : Word) = (c.setWidth 32 <<< 16) ||| x.setWidth 32 := by
  apply BitVec.eq_of_getLsbD_eq
  simp only [BitVec.getLsbD_append, BitVec.getLsbD_or, BitVec.getLsbD_shiftLeft, BitVec.getLsbD_setWidth]
  grind

/-- The types that are acknowledged are COMMAND and DATA (R266). -/
theorem ackedType_eq_true_iff (t : BitVec 4) : ackedType t = true ↔ t = 0x2 ∨ t = 0x3 := by
  simp [ackedType, Config.typeCommand, Config.typeData]

/-- `s` with its decoder hunting for sync again. -/
def State.resumeHunt (s : State) : State := { s with dstate := .huntSync1 }

/-- `gen_token` does not see the decoder's state, nor change it. -/
theorem State.genToken_resumeHunt (k : TokenRecord) (s : State) :
    (s.genToken k).resumeHunt = s.resumeHunt.genToken k := by
  rw [State.genToken_eq, State.genToken_eq]
  rfl

/-- The frame record the decoder holds. -/
def State.heldFrame (s : State) : FrameRecord := s.received (fmtType s.dfmt) (fmtLen s.dfmt)

/-- `s` with the held frame in its channel, its acknowledgement still to come. -/
def State.queueHeld (s : State) : State := (s.pushRx (channel (fmtType s.dfmt)) s.heldFrame).raise .rxFrame

/-- `s` with the held frame's wrong CRC reported, its NACK still to come. -/
def State.reportHeld (s : State) : State :=
  ({ s with
    errInfo := 0#4 ++ (fmtLen s.dfmt ++ (s.did ++ (0#4 ++ fmtType s.dfmt)))
    errCrc := s.dcrc ++ s.dcrcx } : State).raise .integrityErr

/-- EMIT of a valid frame whose channel has room (R261, R266). -/
theorem State.emit_room {s : State} (hcrc : s.dcrc = s.dcrcx)
    (hroom : s.rxq[channel (fmtType s.dfmt)].length < s.params.rxqDepth) :
    s.emit =
      if (fmtType s.dfmt = 0x2 ∨ fmtType s.dfmt = 0x3) ∧ s.autoAck = true then
        s.queueHeld.resumeHunt.genToken ⟨.ack, s.did, 0⟩
      else s.queueHeld.resumeHunt := by
  have hemit : s.emit = (s.deliver s.heldFrame).resumeHunt := State.emit_of_crc_eq hcrc
  rw [hemit, State.deliver_room hroom, apply_ite State.resumeHunt, State.genToken_resumeHunt]
  simp only [← ackedType_eq_true_iff]
  rfl

/-- EMIT of a valid frame whose channel is full (R262). -/
theorem State.emit_full {s : State} (hcrc : s.dcrc = s.dcrcx)
    (hfull : s.params.rxqDepth ≤ s.rxq[channel (fmtType s.dfmt)].length) :
    s.emit = (s.raise .rxOvf).resumeHunt := by
  have hemit : s.emit = (s.deliver s.heldFrame).resumeHunt := State.emit_of_crc_eq hcrc
  rw [hemit, State.deliver_full hfull]

/-- EMIT of a frame whose CRC is wrong (R231, R267). -/
theorem State.emit_mismatch {s : State} (hcrc : s.dcrc ≠ s.dcrcx) :
    s.emit =
      if s.autoNack = true then s.reportHeld.resumeHunt.genToken ⟨.nack, s.did, Config.nackIntegrity⟩
      else s.reportHeld.resumeHunt := by
  have hemit : s.emit = (s.integrityError (fmtType s.dfmt) (fmtLen s.dfmt)).resumeHunt :=
    congrArg State.resumeHunt (if_neg hcrc)
  rw [hemit, ← State.genToken_resumeHunt, ← apply_ite State.resumeHunt]
  rfl

/-- Settles O23: EMIT of what the decoder holds with its last CRC byte; TOK_ACK and TOK_NACK are `gen_token`. -/
theorem lastCrcByteEndsFrame : Obligations.LastCrcByteEndsFrame := by
  intro s b hd x t len c hx ht hlen hc
  subst hx ht hlen hc
  have hemit {u : State} (h : (s.rxCrcLo b).emit = u) : exec (.rxByte b) s = .next u :=
    exec_rxByte_of_eq ((State.rxByte_of_readCrcLo b hd).trans h)
  refine ⟨fun hcrc hroom => ?room, fun hcrc hfull => ?full, fun hcrc => ?mismatch⟩
  case room =>
    have h := State.emit_room (s := s.rxCrcLo b) hcrc hroom
    exact ⟨(s.rxCrcLo b).queueHeld.resumeHunt, rfl, fun hack => hemit (h.trans (if_pos hack)),
      fun hack => hemit (h.trans (if_neg hack))⟩
  case full => exact hemit (State.emit_full (s := s.rxCrcLo b) hcrc hfull)
  case mismatch =>
    have h := State.emit_mismatch (s := s.rxCrcLo b) hcrc
    rw [← errInfo_eq_or, ← errCrc_eq_or]
    exact ⟨(s.rxCrcLo b).reportHeld.resumeHunt, rfl, fun hnack => hemit (h.trans (if_pos hnack)),
      fun hnack => hemit (h.trans (if_neg (Bool.eq_false_iff.mp hnack)))⟩

end Sys2Proof.Machine
end

section
/-! PROOFS. Noise on the RX wire (42_decoder.md R235): bytes without the pair EB 90 start no frame. -/

namespace Sys2Proof.Machine

/-- The state a hunting decoder is in after bytes that start no frame, by the last of them. -/
def huntAfter (n : List Byte) : DState := if n.getLast? = some Config.sync1 then .huntSync2 else .huntSync1

theorem huntAfter_hunting (n : List Byte) : (huntAfter n).hunting := by
  unfold huntAfter
  split_ifs
  · exact .inr rfl
  · exact .inl rfl

/-- The second sync byte does not follow a first one in bytes without the pair. -/
theorem ne_sync2_of_huntAfter {n : List Byte} {b : Byte} (hn : ¬ [Config.sync1, Config.sync2] <:+: n ++ [b])
    (h : huntAfter n = .huntSync2) : b ≠ Config.sync2 := by
  rintro rfl
  have hlast : n.getLast? = some Config.sync1 := by
    by_contra hne
    rw [huntAfter, if_neg hne] at h
    cases h
  obtain ⟨n', rfl⟩ := List.getLast?_eq_some_iff.mp hlast
  exact hn ⟨n', [], by simp⟩

/-- Noise leaves everything but the hunting state. -/
theorem State.rxByte_noise {s : State} (hd : s.dstate = .huntSync1) {n : List Byte}
    (hn : ¬ [Config.sync1, Config.sync2] <:+: n) :
    n.foldl (fun u b => u.rxByte b) s = { s with dstate := huntAfter n } := by
  induction n using List.reverseRecOn with
  | nil =>
    rw [show huntAfter [] = s.dstate from hd.symm]
    rfl
  | append_singleton n b ih =>
    have hpre : ¬ [Config.sync1, Config.sync2] <:+: n := fun h => hn (h.trans ⟨[], [b], rfl⟩)
    rw [List.foldl_append, ih hpre, List.foldl_cons, List.foldl_nil,
      State.rxByte_hunting (huntAfter_hunting n) (ne_sync2_of_huntAfter hn)]
    simp [huntAfter]

/-- Settles O32: the noise before the frame leaves the decoder hunting, which is all the frame needs, and the frame leaves it
hunting for the noise after it. -/
theorem resyncThroughNoise : Obligations.ResyncThroughNoise := by
  intro s t id p n1 n2 hwf hd hp hn1 hn2
  obtain ⟨u, hu, hhunts, hinfo, hcrc, hinteg, hdecerr, hroom, -⟩ := encodedFrameIsReceived s t id p hwf (.inl hd) hp
  refine ⟨u, hu, hinfo, hcrc, hinteg, hdecerr, fun h => ?_, ?_⟩
  · obtain ⟨hrxq, -, hcnt⟩ := hroom h
    exact ⟨hrxq, hcnt⟩
  · rw [perform_rx] at hu ⊢
    injection hu with hu
    have hframe : (encodeFrame t id p).foldl (fun u b => u.rxByte b) { s with dstate := huntAfter n1 } = u :=
      (State.rxByte_encodeFrame (s := { s with dstate := huntAfter n1 }) hwf (huntAfter_hunting n1) t id hp).trans
        ((State.rxByte_encodeFrame hwf (.inl hd) t id hp).symm.trans hu)
    rw [List.foldl_append, List.foldl_append, State.rxByte_noise hd hn1, hframe, State.rxByte_noise hhunts hn2]
    rfl

end Sys2Proof.Machine
end

section
/-! PROOFS. The commands of the demultiplexer and of the token generator (43_demux_tokens.md R260, R263, R264, R270, R275 to
R277). -/

namespace Sys2Proof.Machine

/-- Settles O28, type by type. -/
theorem channelOfType : Obligations.ChannelOfType := by
  unfold Obligations.ChannelOfType
  decide

/-- A word that decodes to a command is that command when written to CMD (R308). -/
theorem isCommand_of_decode {v : Word} {i : Instr} (h : decodeCommand v = .ok i) :
    decodeCommand v = .ok i ∧ ∀ s : State, exec (.hostWrite 0x010 v) s = exec i s :=
  ⟨h, exec_hostWrite_cmd_of_ok h⟩

/-! The words of the commands (30_encoding.md R121). -/

section
variable {v : Word}

theorem decodeCommand_rxPop (h : cmdOp v = 0x20) : decodeCommand v = .ok (.rxPop (cmdA8 v)) := by
  unfold decodeCommand
  rw [h]
  rfl

theorem decodeCommand_rxqClear (h : cmdOp v = 0x21) : decodeCommand v = .ok .rxqClear := by
  unfold decodeCommand
  rw [h]
  rfl

theorem decodeCommand_tokAck (h : cmdOp v = 0x30) : decodeCommand v = .ok (.tokAck (cmdA8 v)) := by
  unfold decodeCommand
  rw [h]
  rfl

theorem decodeCommand_tokNack (h : cmdOp v = 0x31) :
    decodeCommand v = .ok (.tokNack (cmdA8 v) (v.extractLsb' 16 8)) := by
  have hreason : loByte (cmdA16 v) = v.extractLsb' 16 8 := extractLsb'_extractLsb' v (by omega)
  rw [← hreason]
  unfold decodeCommand
  rw [h]
  rfl

theorem decodeCommand_tokClear (h : cmdOp v = 0x32) : decodeCommand v = .ok .tokClear := by
  unfold decodeCommand
  rw [h]
  rfl
end

/-! RX_POP, by the channel number and the channel's queue. -/

theorem channelOf_eq_none {n : Nat} (h : 6 < n) : channelOf n = none := dif_neg (by omega)

@[simp] theorem channelOf_val (ch : Fin 7) : channelOf ch.val = some ch := dif_pos ch.isLt

/-- RX_POP of a number that is no channel. -/
theorem execRxPop_no_channel {c : Byte} (h : 6 < c.toNat) (s : State) : execRxPop c s = .next (s.raise .reject) := by
  unfold execRxPop
  rw [channelOf_eq_none h]

/-- RX_POP of a channel. -/
theorem execRxPop_channel {c : Byte} {ch : Fin 7} (h : c.toNat = ch.val) (s : State) :
    execRxPop c s = if s.rxq[ch].isEmpty then .next (s.raise .reject) else .next (s.popRx ch) := by
  unfold execRxPop
  rw [h, channelOf_val]

/-- Settles O9: the three cases are the branches of the meaning. -/
theorem rxPopRemovesHead : Obligations.RxPopRemovesHead := by
  refine ⟨fun v hop => isCommand_of_decode (decodeCommand_rxPop hop), fun s c =>
    ⟨fun hc => execRxPop_no_channel hc s, fun ch hch => ⟨fun hempty => ?empty, fun h rest hqueue => ?head⟩⟩⟩
  case empty => exact (execRxPop_channel hch s).trans (if_pos (by rw [hempty]; rfl))
  case head =>
    have hpop : s.popRx ch = { s with rxq := s.rxq.set ch rest } := by
      unfold State.popRx
      rw [hqueue, List.tail_cons]
    rw [← hpop]
    exact (execRxPop_channel hch s).trans (if_neg (by simp [hqueue]))

/-- Settles O10. -/
theorem queueClearCommands : Obligations.QueueClearCommands :=
  ⟨fun _ hop => isCommand_of_decode (decodeCommand_rxqClear hop),
    fun _ hop => isCommand_of_decode (decodeCommand_tokClear hop),
    fun _ => ⟨Vector.replicate 7 [], rfl, fun c => Vector.getElem_replicate c.isLt⟩, fun _ => rfl⟩

/-- `gen_token` with room in TOKQ (R270). -/
theorem State.genToken_room {s : State} (h : s.tokq.length < s.params.tokqDepth) (k : TokenRecord) :
    s.genToken k = { s with tokq := s.tokq ++ [k] } := if_pos h

/-- `gen_token` with TOKQ full (R270). -/
theorem State.genToken_full {s : State} (h : s.params.tokqDepth ≤ s.tokq.length) (k : TokenRecord) :
    s.genToken k = s.raise .tokOvf := if_neg h.not_gt

/-- Settles O12: either command is `gen_token`, whose two cases are its branches. -/
theorem tokenCommandsQueueToken : Obligations.TokenCommandsQueueToken := by
  refine ⟨fun v hop => isCommand_of_decode (decodeCommand_tokAck hop),
    fun v hop => isCommand_of_decode (decodeCommand_tokNack hop), fun s e r => ⟨fun hroom => ?room, fun hfull => ?full⟩⟩
  case room => constructor <;> exact congrArg Host.Outcome.next (State.genToken_room hroom _)
  case full => constructor <;> exact congrArg Host.Outcome.next (State.genToken_full hfull _)

end Sys2Proof.Machine
end

section
/-! PROOFS. A queued frame is stable (43_demux_tokens.md R265): what every instruction does to the channel queues. -/

namespace Sys2Proof.Machine

/-- Each channel of `q'` is that of `q`, with at most one frame more at the tail. -/
def GrowsAtTail (q q' : Vector (List FrameRecord) 7) : Prop :=
  ∀ c : Fin 7, q'[c] = q[c] ∨ ∃ r, q'[c] = q[c] ++ [r]

theorem GrowsAtTail.of_eq {q q' : Vector (List FrameRecord) 7} (h : q' = q) : GrowsAtTail q q' :=
  fun _ => .inl (h ▸ rfl)

/-- A push grows its channel and leaves the others. -/
theorem growsAtTail_push (q : Vector (List FrameRecord) 7) (c : Fin 7) (r : FrameRecord) :
    GrowsAtTail q (q.set c (q[c] ++ [r])) := by
  intro d
  rcases eq_or_ne c d with rfl | hne
  · exact .inr ⟨r, Vector.getElem_set_self c.isLt⟩
  · exact .inl (Vector.getElem_set_ne c.isLt d.isLt (Fin.val_ne_of_ne hne))

/-- A meaning that leaves every queued frame where it is, and queues at most one frame to a channel. -/
def KeepsQueued (f : State → Result) : Prop := ∀ s t, f s = .next t → GrowsAtTail s.rxq t.rxq

theorem KeepsQueued.of_next {f : State → State} (h : ∀ s, GrowsAtTail s.rxq (f s).rxq) :
    KeepsQueued fun s => .next (f s) := by
  intro s t hrun
  cases hrun
  exact h s

/-- What leaves the queues in every state keeps what is queued. -/
theorem KeepsQueued.of_rxq_eq {f : State → State} (h : ∀ s, (f s).rxq = s.rxq) : KeepsQueued fun s => .next (f s) :=
  .of_next fun s => .of_eq (h s)

/-! The receiver queues a frame at EMIT alone. -/

theorem State.emitFrame_growsAtTail (t : BitVec 4) (len : BitVec 12) (s : State) :
    GrowsAtTail s.rxq (s.emitFrame t len).rxq := by
  obtain ⟨_, _, _, _, _, _, heq, ⟨-, -, rfl⟩ | rfl, -⟩ := s.emitFrame_cases t len <;> rw [heq]
  · exact growsAtTail_push s.rxq _ _
  · exact .of_eq rfl

theorem State.rxHunt1_rxq (b : Byte) (s : State) : (s.rxHunt1 b).rxq = s.rxq := by
  unfold State.rxHunt1
  split_ifs <;> rfl

theorem State.rxHunt2_rxq (b : Byte) (s : State) : (s.rxHunt2 b).rxq = s.rxq := by
  unfold State.rxHunt2
  split_ifs <;> rfl

theorem State.rxByte_growsAtTail (b : Byte) (s : State) : GrowsAtTail s.rxq (s.rxByte b).rxq := by
  unfold State.rxByte
  split
  case h_1 => exact .of_eq (s.rxHunt1_rxq b)
  case h_2 => exact .of_eq (s.rxHunt2_rxq b)
  case h_8 => exact (s.rxCrcLo b).emitFrame_growsAtTail _ _
  case h_9 =>
    rw [State.rxHunt1_rxq]
    exact s.emitFrame_growsAtTail _ _
  all_goals exact .of_eq rfl

/-! The transmitter and the host port do not touch the queues. -/

theorem execTxSend_keepsQueued (a : Bool) : KeepsQueued (execTxSend a) := by
  intro s t hrun
  unfold execTxSend at hrun
  split_ifs at hrun <;> cases hrun <;> exact .of_eq rfl

theorem execTxCancel_keepsQueued : KeepsQueued execTxCancel := by
  intro s t hrun
  unfold execTxCancel at hrun
  split_ifs at hrun <;> cases hrun <;> exact .of_eq rfl

theorem execDecAbort_keepsQueued : KeepsQueued execDecAbort := by
  refine .of_rxq_eq fun s => ?_
  split_ifs <;> rfl

theorem execHostRead_keepsQueued (off : Half) : KeepsQueued (execHostRead off) := by
  refine .of_rxq_eq fun s => ?_
  cases target off <;> rfl

theorem State.startHost_rxq (s : State) : s.startHost.rxq = s.rxq := by
  unfold State.startHost
  split_ifs <;> rfl

theorem State.finishFrame_rxq (s : State) : s.finishFrame.rxq = s.rxq := by
  unfold State.finishFrame
  cases s.txsrc <;> rfl

theorem State.sendByte_rxq (s : State) : s.sendByte.rxq = s.rxq := by
  rcases s.sendByte_cases with ⟨-, h⟩ | ⟨b, -, -, h⟩ | ⟨b, -, -, h⟩ <;> rw [h]
  · rfl
  · exact State.finishFrame_rxq { s with txpos := s.txpos + 1 }
  · rfl

theorem execTxPull_keepsQueued : KeepsQueued execTxPull := by
  intro s t hrun
  unfold execTxPull at hrun
  rcases s.selectFrame_cases with ⟨-, h⟩ | ⟨k, rest, -, -, h⟩ | ⟨-, -, -, h⟩ | ⟨-, -, -, h⟩ <;>
    rw [h] at hrun <;> cases hrun
  · exact .of_eq s.sendByte_rxq
  · exact .of_eq (s.startToken k rest).sendByte_rxq
  · exact .of_eq (s.startHost.sendByte_rxq.trans s.startHost_rxq)
  · exact .of_eq rfl

/-! Every instruction but RX_POP, RXQ_CLEAR and RESET. -/

/-- An instruction that removes frames from the queues (R265). -/
def removesFrames : Instr → Bool
  | .rxPop _ | .rxqClear | .reset => true
  | _ => false

/-- The commands, the frame types and the function bytes, and every event but a host write. -/
theorem exec_keepsQueued {i : Instr} (hi : removesFrames i = false) (hwrite : ∀ off v, i ≠ .hostWrite off v) :
    KeepsQueued (exec i) := by
  cases i with
  | rxPop c | rxqClear | reset => cases hi
  | hostWrite off v => exact absurd rfl (hwrite off v)
  | txSend a => exact execTxSend_keepsQueued a
  | txCancel => exact execTxCancel_keepsQueued
  | txPull => exact execTxPull_keepsQueued
  | decAbort => exact execDecAbort_keepsQueued
  | hostRead off => exact execHostRead_keepsQueued off
  | tokAck e => exact .of_rxq_eq fun s => s.genToken_rxq _
  | tokNack e r => exact .of_rxq_eq fun s => s.genToken_rxq _
  | nop | crcInit | crcByte _ | tokClear | cntClear => exact .of_rxq_eq fun _ => rfl
  | rxByte _ | fnSetBaudRate | fnSetAckTimeout | fnTransmitToken | fnQueryFile | fnQueryFileCrc | fnReceiveFile
  | fnTransmitFile => exact .of_next (State.rxByte_growsAtTail _)
  | _ => exact .of_next (State.emitFrame_growsAtTail _ _)

/-- Of the command words, those of RX_POP and RXQ_CLEAR alone remove frames. -/
theorem removesFrames_eq_false_of_decode {v : Word} {i : Instr} (hpop : cmdOp v ≠ 0x20) (hclear : cmdOp v ≠ 0x21)
    (h : decodeCommand v = .ok i) : removesFrames i = false := by
  unfold decodeCommand at h
  split at h
  case h_6 hop => exact absurd hop hpop
  case h_7 hop => exact absurd hop hclear
  all_goals cases h <;> rfl

theorem execute_keepsQueued {v : Word} (hpop : cmdOp v ≠ 0x20) (hclear : cmdOp v ≠ 0x21) : KeepsQueued (execute v) := by
  cases h : decodeCommand v with
  | error e => exact funext (execute_of_error h) ▸ .of_rxq_eq fun _ => rfl
  | ok i =>
    exact funext (execute_of_ok h) ▸
      exec_keepsQueued (removesFrames_eq_false_of_decode hpop hclear h) (decodeCommand_ok_ne h).2

/-- A write to a register other than CMD. -/
theorem writeReg_keepsQueued {r : Reg} (hr : r ≠ .cmd) (v : Word) : KeepsQueued (writeReg r v) := by
  cases r with
  | cmd => exact absurd rfl hr
  | txHdr =>
    intro s t hrun
    unfold writeReg at hrun
    split_ifs at hrun <;> cases hrun <;> exact .of_eq rfl
  | _ => exact .of_rxq_eq fun _ => rfl

/-- CMD stands at one offset (20_memory.md R82). -/
theorem eq_offCmd_of_regAt {off : Half} (h : regAt off = some .cmd) : off = 0x010 := by
  unfold regAt at h
  split at h
  case h_5 => rfl
  all_goals cases h

theorem eq_offCmd_of_target {off : Half} (h : target off = .reg .cmd) : off = 0x010 := by
  unfold target at h
  split_ifs at h
  split at h <;> cases h
  exact eq_offCmd_of_regAt ‹_›

theorem execHostWrite_keepsQueued {off : Half} {v : Word}
    (hcmd : off = 0x010 → cmdOp v ≠ 0x20 ∧ cmdOp v ≠ 0x21) : KeepsQueued (execHostWrite off v) := by
  intro s t hrun
  rcases execHostWrite_cases off v s with h | ⟨_, -, -, h⟩ | ⟨r, htarget, h⟩ <;> rw [h] at hrun
  · cases hrun
    exact .of_eq rfl
  · cases hrun
    exact .of_eq rfl
  · by_cases hr : r = .cmd
    · subst hr
      obtain ⟨hpop, hclear⟩ := hcmd (eq_offCmd_of_target htarget)
      exact execute_keepsQueued hpop hclear s t hrun
    · exact writeReg_keepsQueued hr v s t hrun

/-- Settles O51: only EMIT pushes to a queue; a host write is its command's effect at the one offset of CMD, and leaves the
queues elsewhere. -/
theorem queuedFramesAreStable : Obligations.QueuedFramesAreStable := by
  intro i s t c hpop hclear hreset hcmd hrun
  suffices h : KeepsQueued (exec i) from h s t hrun c
  by_cases hwrite : ∃ off v, i = .hostWrite off v
  · obtain ⟨off, v, rfl⟩ := hwrite
    refine execHostWrite_keepsQueued fun hoff => ?_
    subst hoff
    exact hcmd v rfl
  · push Not at hwrite
    refine exec_keepsQueued ?_ hwrite
    cases i with
    | rxPop b => exact absurd rfl (hpop b)
    | rxqClear => exact absurd rfl hclear
    | reset => exact absurd rfl hreset
    | _ => rfl

end Sys2Proof.Machine
end

section
/-! PROOFS. Writes of the host port (44_host_interface.md R304, R305, R307, R308) and the commands NOP and CNT_CLEAR (R310,
R311). -/

namespace Sys2Proof.Machine

/-! The commands NOP and CNT_CLEAR. -/

theorem decodeCommand_nop {v : Word} (h : cmdOp v = 0x00) : decodeCommand v = .ok .nop := by
  unfold decodeCommand
  rw [h]
  rfl

theorem decodeCommand_cntClear {v : Word} (h : cmdOp v = 0x40) : decodeCommand v = .ok .cntClear := by
  unfold decodeCommand
  rw [h]
  rfl

/-- Settles O6. -/
theorem nopAndCntClear : Obligations.NopAndCntClear :=
  ⟨fun _ hop => isCommand_of_decode (decodeCommand_nop hop),
    fun _ hop => isCommand_of_decode (decodeCommand_cntClear hop),
    fun _ => rfl, fun _ => rfl⟩

/-! A write to CMD. -/

/-- A write of a reserved command word to CMD raises REJECT (R308, 30_encoding.md R122). -/
theorem exec_hostWrite_cmd_of_reserved {v : Word} (h : cmdOp v ∉ Config.opcodes) (s : State) :
    exec (.hostWrite 0x010 v) s = .next (s.raise .reject) :=
  (exec_hostWrite_cmd v s).trans (execute_of_error (decodeCommand_reserved h) s)

/-- Settles O41: the opcodes that decode to no command are the reserved ones. -/
theorem cmdWriteRunsCommand : Obligations.CmdWriteRunsCommand :=
  fun s _ => ⟨fun _ hdec => exec_hostWrite_cmd_of_ok hdec s, fun hreserved => exec_hostWrite_cmd_of_reserved hreserved s⟩

/-! A write to a register. -/

/-- The offset of a register names it (20_memory.md R82). -/
@[simp] theorem target_offset (r : Reg) : target r.offset = .reg r := by
  cases r <;> decide

/-- A host write at the offset of a register is a write to the register. -/
theorem exec_hostWrite_offset (r : Reg) (v : Word) (s : State) : exec (.hostWrite r.offset v) s = writeReg r v s := by
  change execHostWrite r.offset v s = _
  unfold execHostWrite
  rw [target_offset]

/-- The write-one-to-clear, bit by bit (R307): a 1 clears the bit, a 0 leaves it. -/
theorem State.acknowledge_evtPend_getLsbD (v : Word) (s : State) {k : Nat} (hk : k < 8) :
    (s.acknowledge (v.extractLsb' 0 8)).evtPend.getLsbD k = (s.evtPend.getLsbD k && !v.getLsbD k) := by
  simp [hk]

/-- TX_HDR is locked while a frame is staged (R305). -/
theorem writeReg_txHdr_staged {s : State} (h : s.txStaged = true) (v : Word) :
    writeReg .txHdr v s = .next (s.raise .reject) :=
  if_pos h

/-- TX_HDR takes the fields of the word when no frame is staged (R305). -/
theorem writeReg_txHdr_unstaged {s : State} (h : s.txStaged = false) (v : Word) :
    writeReg .txHdr v s = .next { s with txHdr := TxHdr.ofWord v } :=
  if_neg (Bool.eq_false_iff.mp h)

/-- Settles O40: each offset is that of its register, and the write has the register's own effect. -/
theorem hostWriteSetsRegister : Obligations.HostWriteSetsRegister := by
  intro s v
  have hwrite (r : Reg) : exec (.hostWrite r.offset v) s = writeReg r v s := exec_hostWrite_offset r v s
  refine ⟨hwrite .ctrl, hwrite .evtMask, hwrite .rxSel, hwrite .nextId, ?evtPend, fun hstaged => ?locked,
    fun hunstaged => ?unlocked⟩
  case evtPend => exact ⟨_, hwrite .evtPend, fun k hk => s.acknowledge_evtPend_getLsbD v hk⟩
  case locked => exact (hwrite .txHdr).trans (writeReg_txHdr_staged hstaged v)
  case unlocked => exact (hwrite .txHdr).trans (writeReg_txHdr_unstaged hunstaged v)

end Sys2Proof.Machine
end

section
/-! PROOFS. Errors are events, no faults (60_exceptions.md R347, R348, R351): every instruction has a next state, REJECT is
raised by the refused ones alone, and the two paths do not disturb each other. -/

namespace Sys2Proof.Machine

/-! What each path leaves alone. -/

/-- The transmit path but TOKQ, with HCRC and the parameters. -/
def State.transmitPath (s : State) :
    Bool × TxSnap × TxHdr × Mem × TxSrc × List Byte × BitVec 13 × Byte × Half × Params :=
  (s.txStaged, s.txSnap, s.txHdr, s.txbuf, s.txsrc, s.txframe, s.txpos, s.nextId, s.hcrc, s.params)

/-- The receive path: the decoder with DBUF, the channel queues, ERR_INFO and ERR_CRC, with HCRC and the parameters. -/
def State.receivePath (s : State) :
    DState × Half × Byte × BitVec 12 × Half × Half × Mem × Vector (List FrameRecord) 7 × Word × Word × Half × Params :=
  (s.dstate, s.dfmt, s.did, s.didx, s.dcrc, s.dcrcx, s.dbuf, s.rxq, s.errInfo, s.errCrc, s.hcrc, s.params)

/-- What the receive path leaves alone: the transmit path and the bit of REJECT. -/
def State.outsideReceive (s : State) := (s.transmitPath, s.evtPend.getLsbD 7)

/-- What the transmit path leaves alone: the receive path and the bit of REJECT. -/
def State.outsideTransmit (s : State) := (s.receivePath, s.evtPend.getLsbD 7)

/-- An event sets its own bit alone, so no other event raises REJECT (R340). -/
theorem State.raise_evtPend_getLsbD_reject {e : Evt} (he : e ≠ .reject) (s : State) :
    (s.raise e).evtPend.getLsbD 7 = s.evtPend.getLsbD 7 := by
  have hbit : e.bit ≠ 7 := by
    cases e with
    | reject => exact absurd rfl he
    | _ => decide
  rw [State.raise_evtPend, BitVec.getLsbD_or, Evt.flag_getLsbD, decide_eq_false hbit, Bool.or_false]

theorem State.raise_outsideReceive {e : Evt} (he : e ≠ .reject) (s : State) :
    (s.raise e).outsideReceive = s.outsideReceive := by
  unfold State.outsideReceive
  rw [State.raise_evtPend_getLsbD_reject he]
  rfl

theorem State.raise_outsideTransmit {e : Evt} (he : e ≠ .reject) (s : State) :
    (s.raise e).outsideTransmit = s.outsideTransmit := by
  unfold State.outsideTransmit
  rw [State.raise_evtPend_getLsbD_reject he]
  rfl

/-! The receive path. -/

theorem State.genToken_outsideReceive (k : TokenRecord) (s : State) :
    (s.genToken k).outsideReceive = s.outsideReceive := by
  unfold State.genToken
  split_ifs
  · rfl
  · exact State.raise_outsideReceive (by decide) s

theorem State.deliver_outsideReceive (r : FrameRecord) (s : State) :
    (s.deliver r).outsideReceive = s.outsideReceive := by
  have hpush : ((s.pushRx (channel r.type) r).raise .rxFrame).outsideReceive = s.outsideReceive :=
    State.raise_outsideReceive (by decide) _
  rcases lt_or_ge s.rxq[channel r.type].length s.params.rxqDepth with h | h
  · rw [State.deliver_room h]
    split_ifs
    · exact (State.genToken_outsideReceive _ _).trans hpush
    · exact hpush
  · rw [State.deliver_full h]
    exact State.raise_outsideReceive (by decide) s

theorem State.integrityError_outsideReceive (t : BitVec 4) (len : BitVec 12) (s : State) :
    (s.integrityError t len).outsideReceive = s.outsideReceive := by
  simp only [State.integrityError]
  split_ifs
  · rw [State.genToken_outsideReceive]
    exact State.raise_outsideReceive (by decide) _
  · exact State.raise_outsideReceive (by decide) _

theorem State.emitFrame_outsideReceive (t : BitVec 4) (len : BitVec 12) (s : State) :
    (s.emitFrame t len).outsideReceive = s.outsideReceive := by
  unfold State.emitFrame
  split_ifs
  · exact State.deliver_outsideReceive _ s
  · exact State.integrityError_outsideReceive t len s

theorem State.rxHunt1_outsideReceive (b : Byte) (s : State) : (s.rxHunt1 b).outsideReceive = s.outsideReceive := by
  unfold State.rxHunt1
  split_ifs <;> rfl

theorem State.rxHunt2_outsideReceive (b : Byte) (s : State) : (s.rxHunt2 b).outsideReceive = s.outsideReceive := by
  unfold State.rxHunt2
  split_ifs <;> rfl

theorem State.rxByte_outsideReceive (b : Byte) (s : State) : (s.rxByte b).outsideReceive = s.outsideReceive := by
  unfold State.rxByte
  split
  case h_1 => exact s.rxHunt1_outsideReceive b
  case h_2 => exact s.rxHunt2_outsideReceive b
  case h_8 => exact (s.rxCrcLo b).emitFrame_outsideReceive _ _
  case h_9 => exact (s.emit.rxHunt1_outsideReceive b).trans (s.emitFrame_outsideReceive _ _)
  all_goals rfl

theorem execDecAbort_outsideReceive (s : State) :
    ∃ t, execDecAbort s = .next t ∧ t.outsideReceive = s.outsideReceive := by
  refine ⟨_, rfl, ?_⟩
  split_ifs
  · exact State.raise_outsideReceive (by decide) s
  · rfl

/-! The transmit path. -/

theorem State.startHost_outsideTransmit (s : State) : s.startHost.outsideTransmit = s.outsideTransmit := by
  unfold State.startHost State.outsideTransmit
  split_ifs <;> rfl

theorem State.finishFrame_outsideTransmit (s : State) : s.finishFrame.outsideTransmit = s.outsideTransmit := by
  unfold State.finishFrame
  cases s.txsrc with
  | host => exact State.raise_outsideTransmit (e := .txDone) (by decide) { s with txStaged := false }
  | none | token => rfl

theorem State.sendByte_outsideTransmit (s : State) : s.sendByte.outsideTransmit = s.outsideTransmit := by
  rcases s.sendByte_cases with ⟨-, h⟩ | ⟨b, -, -, h⟩ | ⟨b, -, -, h⟩ <;> rw [h]
  · rfl
  · exact State.finishFrame_outsideTransmit { s with txpos := s.txpos + 1 }
  · rfl

theorem execTxPull_outsideTransmit (s : State) :
    ∃ t, execTxPull s = .next t ∧ t.outsideTransmit = s.outsideTransmit := by
  unfold execTxPull
  rcases s.selectFrame_cases with ⟨-, h⟩ | ⟨k, rest, -, -, h⟩ | ⟨-, -, -, h⟩ | ⟨-, -, -, h⟩ <;> rw [h]
  · exact ⟨_, rfl, s.sendByte_outsideTransmit⟩
  · exact ⟨_, rfl, (s.startToken k rest).sendByte_outsideTransmit⟩
  · exact ⟨_, rfl, s.startHost.sendByte_outsideTransmit.trans s.startHost_outsideTransmit⟩
  · exact ⟨_, rfl, rfl⟩

theorem execTxSend_outsideTransmit {s : State} (h : s.txStaged = false) (a : Bool) :
    ∃ t, execTxSend a s = .next t ∧ t.outsideTransmit = s.outsideTransmit := by
  unfold execTxSend
  rw [if_neg (Bool.eq_false_iff.mp h)]
  split_ifs
  · exact ⟨_, rfl, State.raise_outsideTransmit (by decide) s⟩
  · exact ⟨_, rfl, rfl⟩

/-- TX_SEND, TX_CANCEL and TX_PULL, where they are not refused. -/
theorem exec_outsideTransmit {i : Instr} {s : State} (hi : (∃ a, i = .txSend a) ∨ i = .txCancel ∨ i = .txPull)
    (hok : ¬ refusedIn i s) : ∃ t, exec i s = .next t ∧ t.outsideTransmit = s.outsideTransmit := by
  rcases hi with ⟨a, rfl⟩ | rfl | rfl
  · exact execTxSend_outsideTransmit (Bool.eq_false_iff.mpr hok) a
  · obtain ⟨hstaged, hsrc⟩ := not_or.mp hok
    exact ⟨_, execTxCancel_waiting (Bool.eq_true_of_not_eq_false hstaged) hsrc, rfl⟩
  · exact execTxPull_outsideTransmit s

/-! What raises REJECT. -/

/-- A result from `s` of an instruction that is refused iff `refused`: REJECT alone is raised, what a read returns aside; or
there is a next state, in which REJECT has not been raised. -/
inductive RejectsIff (s : State) (refused : Prop) : Result → Prop where
  | rejected (h : refused) (rs : List Reply) : RejectsIff s refused (.next { s.raise .reject with replies := rs })
  | completed (h : ¬ refused) (t : State) (hquiet : s.evtPend.getLsbD 7 = false → t.evtPend.getLsbD 7 = false) :
      RejectsIff s refused (.next t)

section
variable {s : State} {refused : Prop} {o : Result}

theorem RejectsIff.exists_next (h : RejectsIff s refused o) : ∃ t, o = .next t := by
  cases h <;> exact ⟨_, rfl⟩

/-- REJECT raised, and the reply of a read or none. -/
theorem RejectsIff.of_raise (h : refused) : RejectsIff s refused (.next (s.raise .reject)) :=
  .rejected h s.replies

theorem RejectsIff.of_outsideReceive (h : ¬ refused)
    (ho : ∃ t, o = .next t ∧ t.outsideReceive = s.outsideReceive) : RejectsIff s refused o := by
  obtain ⟨t, rfl, ht⟩ := ho
  exact .completed h t (congrArg Prod.snd ht).trans

theorem RejectsIff.of_outsideTransmit (h : ¬ refused)
    (ho : ∃ t, o = .next t ∧ t.outsideTransmit = s.outsideTransmit) : RejectsIff s refused o := by
  obtain ⟨t, rfl, ht⟩ := ho
  exact .completed h t (congrArg Prod.snd ht).trans

/-- A refused instruction raises REJECT and changes nothing else, what a read returns aside (R347). -/
theorem RejectsIff.next_of_refused {t : State} (h : RejectsIff s refused (.next t)) (hr : refused) :
    t = { s with evtPend := s.evtPend ||| 0x80, replies := t.replies } := by
  cases h with
  | rejected _ rs => rfl
  | completed hok => exact absurd hr hok

/-- A clear REJECT bit is set iff the instruction is refused (R347). -/
theorem RejectsIff.reject_iff {t : State} (h : RejectsIff s refused (.next t)) (hclear : s.evtPend.getLsbD 7 = false) :
    t.evtPend.getLsbD 7 = true ↔ refused := by
  cases h with
  | rejected hr rs =>
    refine iff_of_true ?_ hr
    simp [Evt.flag_getLsbD, Evt.bit]
  | completed hok _ hquiet => exact iff_of_false (Bool.eq_false_iff.mp (hquiet hclear)) hok
end

/-! The commands. -/

theorem execTxSend_rejectsIff (a : Bool) (s : State) : RejectsIff s (refusedIn (.txSend a) s) (execTxSend a s) := by
  by_cases hok : refusedIn (.txSend a) s
  · exact execTxSend_staged hok a ▸ .of_raise hok
  · exact .of_outsideTransmit hok (exec_outsideTransmit (.inl ⟨a, rfl⟩) hok)

theorem execTxCancel_rejectsIff (s : State) : RejectsIff s (refusedIn .txCancel s) (execTxCancel s) := by
  by_cases hok : refusedIn .txCancel s
  · exact execTxCancel_refused hok ▸ .of_raise hok
  · exact .of_outsideTransmit hok (exec_outsideTransmit (.inr (.inl rfl)) hok)

theorem execRxPop_rejectsIff (c : Byte) (s : State) : RejectsIff s (refusedIn (.rxPop c) s) (execRxPop c s) := by
  rcases lt_or_ge 6 c.toNat with hc | hc
  · exact execRxPop_no_channel hc s ▸ .of_raise (.inl hc)
  · obtain ⟨ch, hch⟩ : ∃ ch : Fin 7, c.toNat = ch.val := ⟨⟨c.toNat, by omega⟩, rfl⟩
    rw [execRxPop_channel hch]
    split_ifs with hempty
    · exact .of_raise (.inr ⟨ch, hch, List.isEmpty_iff.mp hempty⟩)
    · refine .completed ?_ _ id
      rintro (hlt | ⟨ch', hch', hnil⟩)
      · omega
      · obtain rfl : ch = ch' := Fin.ext (hch.symm.trans hch')
        exact hempty (List.isEmpty_iff.mpr hnil)

/-! The offsets of the host port. -/

theorem eq_offset_of_regAt {off : Half} {r : Reg} (h : regAt off = some r) : off = r.offset := by
  unfold regAt at h
  split at h <;> cases h <;> rfl

/-- Every aligned offset up to 0x040 is that of a register (20_memory.md R82). -/
theorem regAt_isSome {off : Half} (halign : off.extractLsb' 0 2 = 0) (h : off.toNat < 0x044) :
    (regAt off).isSome = true := by
  have hall : ∀ n : Fin 0x044, (BitVec.ofNat 16 n).extractLsb' 0 2 = 0 → (regAt (BitVec.ofNat 16 n)).isSome = true := by
    decide
  have hoff := hall ⟨off.toNat, h⟩
  rw [BitVec.ofNat_toNat, BitVec.setWidth_eq] at hoff
  exact hoff halign

/-- What an offset names, by where it stands (20_memory.md R81 to R84). -/
theorem target_cases (off : Half) :
    (badOffset off ∧ (target off = .misaligned ∨ target off = .unmapped)) ∨
    (¬ badOffset off ∧ 0x4000 ≤ off.toNat ∧ off.toNat ≤ 0x7FF8 ∧ ∃ i, target off = .txbuf i) ∨
    (¬ badOffset off ∧ 0x8000 ≤ off.toNat ∧ off.toNat ≤ 0xBFF8 ∧ ∃ i, target off = .rxwin i) ∨
    ∃ r, off = r.offset ∧ target off = .reg r := by
  by_cases halign : off.extractLsb' 0 2 = 0
  case neg => exact .inl ⟨.inl halign, .inl (if_pos halign)⟩
  have hmod : off.toNat % 4 = 0 := by simpa using congrArg BitVec.toNat halign
  have hbad : badOffset off ↔ (0x044 ≤ off.toNat ∧ off.toNat ≤ 0x3FFC) ∨ off.toNat = 0x7FFC ∨ 0xBFFC ≤ off.toNat :=
    or_iff_right (not_not_intro halign)
  unfold target
  rw [if_neg (not_not_intro halign), hbad]
  split_ifs with htx hrx
  · exact .inr (.inl ⟨by omega, htx.1, htx.2, _, rfl⟩)
  · exact .inr (.inr (.inl ⟨by omega, hrx.1, hrx.2, _, rfl⟩))
  · cases hreg : regAt off with
    | some r => exact .inr (.inr (.inr ⟨r, eq_offset_of_regAt hreg, rfl⟩))
    | none =>
      have hhigh : 0x044 ≤ off.toNat := by
        by_contra hlow
        simpa [hreg] using regAt_isSome halign (not_le.mp hlow)
      exact .inl ⟨by omega, .inr rfl⟩

/-- The read-only offsets are registers or the RX window (44_host_interface.md R303). -/
theorem toNat_of_readOnlyOffset {off : Half} (h : readOnlyOffset off) : off.toNat < 0x044 ∨ 0x8000 ≤ off.toNat := by
  refine h.imp (fun hmem => ?_) And.left
  simp only [List.mem_cons, List.not_mem_nil, or_false] at hmem
  bv_omega

section
variable (r : Reg)

theorem not_badOffset_offset : ¬ badOffset r.offset := by
  unfold badOffset
  cases r <;> decide

theorem readOnlyOffset_offset :
    readOnlyOffset r.offset ↔ r ∈ [.status, .hcrc, .rxHdr, .rxCrc, .errInfo, .errCrc, .cnt0, .cnt1, .cnt2, .cnt3] := by
  unfold readOnlyOffset
  cases r <;> decide

theorem lockedOffset_offset : lockedOffset r.offset ↔ r = .txHdr := by
  unfold lockedOffset
  cases r <;> decide

theorem offset_eq_cmd : r.offset = 0x010 ↔ r = .cmd := by
  cases r <;> decide
end

/-! The accesses. -/

theorem execHostRead_rejectsIff (off : Half) (s : State) :
    RejectsIff s (refusedIn (.hostRead off) s) (execHostRead off s) := by
  unfold execHostRead
  rcases target_cases off with ⟨hbad, h | h⟩ | ⟨hok, -, -, i, h⟩ | ⟨hok, -, -, i, h⟩ | ⟨r, rfl, h⟩ <;> rw [h]
  · exact .rejected hbad _
  · exact .rejected hbad _
  · exact .completed hok _ id
  · exact .completed hok _ id
  · exact .completed (not_badOffset_offset r) _ id

theorem refusedIn_hostWrite_cmd_of_ok {v : Word} {i : Instr} (h : decodeCommand v = .ok i) (s : State) :
    refusedIn (.hostWrite 0x010 v) s ↔ refusedIn i s := by
  have hcmd : refusedIn i s ↔ commandRefused i s := by
    unfold decodeCommand at h
    split at h <;> cases h <;> rfl
  have hbad : ¬ badOffset 0x010#16 := not_badOffset_offset .cmd
  have hread : ¬ readOnlyOffset 0x010#16 := (readOnlyOffset_offset .cmd).not.mpr (by decide)
  have hlock : ¬ lockedOffset 0x010#16 := (lockedOffset_offset .cmd).not.mpr (by decide)
  rw [hcmd]
  simp [refusedIn, hbad, hread, hlock, h]

theorem refusedIn_hostWrite_cmd_of_error {v : Word} {e : DecodeError} (h : decodeCommand v = .error e) (s : State) :
    refusedIn (.hostWrite 0x010 v) s := by
  simp [refusedIn, h]

theorem refusedIn_hostWrite_offset {r : Reg} (hr : r ≠ .cmd) (v : Word) (s : State) :
    refusedIn (.hostWrite r.offset v) s ↔
      r ∈ [.status, .hcrc, .rxHdr, .rxCrc, .errInfo, .errCrc, .cnt0, .cnt1, .cnt2, .cnt3] ∨
        (r = .txHdr ∧ s.txStaged = true) := by
  have hcmd : ¬ r.offset = 0x010 := (offset_eq_cmd r).not.mpr hr
  simp only [refusedIn, not_badOffset_offset, readOnlyOffset_offset, lockedOffset_offset, hcmd, false_and, or_false,
    false_or]

/-- The commands, the frame types and the function bytes, and every event but a host write. -/
theorem exec_rejectsIff_of_ne {i : Instr} (hwrite : ∀ off v, i ≠ .hostWrite off v) (s : State) :
    RejectsIff s (refusedIn i s) (exec i s) := by
  cases i with
  | hostWrite off v => exact absurd rfl (hwrite off v)
  | txSend a => exact execTxSend_rejectsIff a s
  | txCancel => exact execTxCancel_rejectsIff s
  | rxPop c => exact execRxPop_rejectsIff c s
  | hostRead off => exact execHostRead_rejectsIff off s
  | txPull => exact .of_outsideTransmit not_false (execTxPull_outsideTransmit s)
  | decAbort => exact .of_outsideReceive not_false (execDecAbort_outsideReceive s)
  | tokAck e => exact .of_outsideReceive not_false ⟨_, rfl, s.genToken_outsideReceive _⟩
  | tokNack e r => exact .of_outsideReceive not_false ⟨_, rfl, s.genToken_outsideReceive _⟩
  | reset => exact .completed not_false _ fun _ => BitVec.getLsbD_zero
  | nop | crcInit | crcByte _ | rxqClear | tokClear | cntClear => exact .completed not_false _ id
  | rxByte _ | fnSetBaudRate | fnSetAckTimeout | fnTransmitToken | fnQueryFile | fnQueryFileCrc | fnReceiveFile
  | fnTransmitFile => exact .of_outsideReceive not_false ⟨_, rfl, s.rxByte_outsideReceive _⟩
  | _ => exact .of_outsideReceive not_false ⟨_, rfl, s.emitFrame_outsideReceive _ _⟩

theorem execute_rejectsIff (v : Word) (s : State) : RejectsIff s (refusedIn (.hostWrite 0x010 v) s) (execute v s) := by
  cases h : decodeCommand v with
  | error e => exact execute_of_error h s ▸ .of_raise (refusedIn_hostWrite_cmd_of_error h s)
  | ok i =>
    rw [execute_of_ok h, refusedIn_hostWrite_cmd_of_ok h]
    exact exec_rejectsIff_of_ne (decodeCommand_ok_ne h).2 s

/-- A write-one-to-clear sets no bit (R307). -/
theorem State.acknowledge_quiet (v : Byte) {s : State} (h : s.evtPend.getLsbD 7 = false) :
    (s.acknowledge v).evtPend.getLsbD 7 = false := by
  rw [State.acknowledge_evtPend, BitVec.getLsbD_and, h, Bool.false_and]

theorem writeReg_rejectsIff (r : Reg) (v : Word) (s : State) :
    RejectsIff s (refusedIn (.hostWrite r.offset v) s) (writeReg r v s) := by
  by_cases hcmd : r = .cmd
  · exact hcmd ▸ execute_rejectsIff v s
  rw [refusedIn_hostWrite_offset hcmd]
  cases r with
  | cmd => exact absurd rfl hcmd
  | txHdr =>
    cases hstaged : s.txStaged with
    | true => exact writeReg_txHdr_staged hstaged v ▸ .of_raise (.inr ⟨rfl, rfl⟩)
    | false => exact writeReg_txHdr_unstaged hstaged v ▸ .completed (by decide) _ id
  | evtPend => exact .completed (by simp) _ (State.acknowledge_quiet _)
  | ctrl | evtMask | rxSel | nextId => exact .completed (by simp) _ id
  | _ => exact .of_raise (.inl (by decide))

theorem execHostWrite_rejectsIff (off : Half) (v : Word) (s : State) :
    RejectsIff s (refusedIn (.hostWrite off v) s) (execHostWrite off v s) := by
  unfold execHostWrite
  rcases target_cases off with ⟨hbad, h | h⟩ | ⟨hok, hlo, hhi, i, h⟩ | ⟨-, hlo, hhi, i, h⟩ | ⟨r, rfl, h⟩ <;> rw [h]
  · exact .of_raise (.inl hbad)
  · exact .of_raise (.inl hbad)
  · have hread : ¬ readOnlyOffset off := fun hread => by
      have := toNat_of_readOnlyOffset hread
      omega
    have hcmd : off ≠ 0x010#16 := by
      rintro rfl
      exact absurd hlo (by decide)
    dsimp only
    split_ifs with hstaged
    · exact .of_raise (.inr (.inr (.inl ⟨.inr ⟨hlo, hhi⟩, hstaged⟩)))
    · exact .completed (by simp [refusedIn, hok, hread, hcmd, hstaged]) _ id
  · exact .of_raise (.inr (.inl (.inr ⟨hlo, hhi⟩)))
  · exact writeReg_rejectsIff r v s

theorem exec_rejectsIff (i : Instr) (s : State) : RejectsIff s (refusedIn i s) (exec i s) := by
  by_cases hwrite : ∃ off v, i = .hostWrite off v
  · obtain ⟨off, v, rfl⟩ := hwrite
    exact execHostWrite_rejectsIff off v s
  · push Not at hwrite
    exact exec_rejectsIff_of_ne hwrite s

/-! The statements. -/

/-- Settles O47: an instruction raises REJECT in its next state, or completes. -/
theorem everyInstructionCompletes : Obligations.EveryInstructionCompletes :=
  fun i s => (exec_rejectsIff i s).exists_next

/-- Settles O49: a refused instruction raises REJECT and changes nothing else, any other leaves a clear bit clear. -/
theorem rejectRaisedExactlyWhenRefused : Obligations.RejectRaisedExactlyWhenRefused := by
  intro i s t hrun
  have h : RejectsIff s (refusedIn i s) (.next t) := hrun ▸ exec_rejectsIff i s
  exact ⟨h.reject_iff, h.next_of_refused⟩

/-- Settles O50: the receive path leaves the transmit path; the transmit path, where it is not refused, leaves the receive
path, and a refusal changes the bit of REJECT alone. -/
theorem errorsDoNotCross : Obligations.ErrorsDoNotCross := by
  constructor
  · intro s t b r hrun
    have h : t.outsideReceive = s.outsideReceive := by
      rcases hrun with h | h | h | h
      · cases h
        exact s.rxByte_outsideReceive b
      · obtain ⟨u, hu, hout⟩ := execDecAbort_outsideReceive s
        cases hu.symm.trans h
        exact hout
      · cases h
        exact s.genToken_outsideReceive _
      · cases h
        exact s.genToken_outsideReceive _
    simpa [State.outsideReceive, State.transmitPath] using congrArg Prod.fst h
  · intro i s t hi hrun
    by_cases hrefused : refusedIn i s
    · rw [(rejectRaisedExactlyWhenRefused i s t hrun).2 hrefused]
      exact ⟨rfl, rfl, rfl, rfl, rfl, rfl, rfl, rfl, rfl, rfl, rfl, rfl⟩
    · obtain ⟨u, hu, h⟩ := exec_outsideTransmit (i := i) (by tauto) hrefused
      cases hu.symm.trans hrun
      simpa [State.outsideTransmit, State.receivePath] using congrArg Prod.fst h

end Sys2Proof.Machine
end

section
/-! PROOFS. RESET (70_reset_and_hazards.md R380): the value of every state element (10_state.md R55). -/

namespace Sys2Proof.Machine

/-- RESET gives the state right after Reset for the same parameters; the events to come and the replies are kept. -/
theorem exec_reset (s : State) :
    exec .reset s = .next { State.resetWith s.params with inbox := s.inbox, replies := s.replies } := rfl

theorem State.resetWith_rxq_getElem (p : Params) (c : Fin 7) : (State.resetWith p).rxq[c] = [] :=
  Vector.getElem_replicate c.isLt

/-- With no event pending the interrupt level is low, whatever the mask (R52). -/
theorem State.irq_eq_false_of_evtPend_eq_zero {s : State} (h : s.evtPend = 0) : s.irq = false := by
  simp [State.irq, h]

/-- Settles O46: the stored elements have their values by definition; every channel's queue is empty, and IRQ is low because no
event is pending. -/
theorem resetSetsEveryElement : Obligations.ResetSetsEveryElement := fun s =>
  have hrxq := State.resetWith_rxq_getElem s.params
  have hpend := State.resetWith_evtPend s.params
  ⟨_, exec_reset s,
    rfl, rfl,
    rfl, rfl, rfl, rfl, rfl,
    hrxq, rfl, rfl,
    rfl, rfl, rfl,
    rfl, rfl, rfl, rfl,
    rfl, hpend, rfl, rfl,
    rfl, rfl, rfl,
    State.irq_eq_false_of_evtPend_eq_zero hpend⟩

end Sys2Proof.Machine
end

section
/-! PROOFS. What an instruction can do to the state, said once: the list of changes the invariants of every step are read off. -/

namespace Sys2Proof.Machine

/-- Every bit set in `p` is set in `q`. -/
def BitsKept (p q : Byte) : Prop := ∀ k, p.getLsbD k = true → q.getLsbD k = true

theorem BitsKept.refl (p : Byte) : BitsKept p p := fun _ h => h

theorem BitsKept.trans {p q r : Byte} (hpq : BitsKept p q) (hqr : BitsKept q r) : BitsKept p r :=
  fun k h => hqr k (hpq k h)

theorem BitsKept.or (p e : Byte) : BitsKept p (p ||| e) := fun k h => by rw [BitVec.getLsbD_or, h, Bool.true_or]

/-- The changes instruction `i` can make to `s`. -/
inductive Change (i : Instr) (s : State) : State → Prop where
  /-- registers that no invariant speaks of; EVT_PEND only gains bits -/
  | registers (p : Byte) (x : Half) (h : TxHdr) (c : BitVec 2) (m : Byte) (sel : BitVec 3) (n : Counters)
      (rs : List Reply) (hp : BitsKept s.evtPend p) :
      Change i s { s with
        evtPend := p, hcrc := x, txHdr := h, ctrl := c, evtMask := m, rxSel := sel, cnt := n, replies := rs }
  /-- the write-one-to-clear of EVT_PEND -/
  | acknowledge (v : Word) (hi : i = .hostWrite 0x008 v) : Change i s (s.acknowledge (v.extractLsb' 0 8))
  /-- a write of NEXT_ID -/
  | nextId (v : Word) (hi : i = .hostWrite 0x040 v) : Change i s { s with nextId := v.extractLsb' 0 8 }
  /-- a write of TXBUF with nothing staged -/
  | store (n : Nat) (b : Byte) (hstaged : s.txStaged = false) : Change i s { s with txbuf := s.txbuf.write n b }
  /-- TX_SEND of what TX_HDR and TXBUF hold -/
  | stage (snap : TxSnap) (hstaged : s.txStaged = false) (hcrc : snap.crc = crcOf (s.txbuf.slice snap.len.toNat)) :
      Change i s { s with txStaged := true, txSnap := snap }
  /-- TX_CANCEL of a frame that has not started -/
  | cancel (hsrc : s.txsrc ≠ .host) : Change i s { s with txStaged := false }
  /-- TX_PULL -/
  | pull (hi : i = .txPull) (t : State) (ht : execTxPull s = .next t) : Change i s t
  /-- a byte on the RX wire -/
  | rxByte (b : Byte) : Change i s (s.rxByte b)
  /-- EMIT by the name of a frame type, which no external event has -/
  | emit (t : BitVec 4) (len : BitVec 12) (hi : (encode i).1 = .format) : Change i s (s.emitFrame t len)
  /-- DEC_ABORT -/
  | abort (p : Byte) (n : Counters) (hp : BitsKept s.evtPend p) :
      Change i s { s with dstate := .huntSync1, evtPend := p, cnt := n }
  /-- a token command -/
  | token (k : TokenRecord) (hk : k.kind = .ack → k.reason = 0) : Change i s (s.genToken k)
  /-- frames or tokens dropped from the heads of their queues -/
  | dequeue (q : Vector (List FrameRecord) 7) (k : List TokenRecord) (hq : ∀ c : Fin 7, q[c] <:+ s.rxq[c])
      (hk : k <:+ s.tokq) : Change i s { s with rxq := q, tokq := k }
  /-- RESET -/
  | reset (hi : i = .reset) :
      Change i s { State.resetWith s.params with inbox := s.inbox, replies := s.replies }

section
variable {i : Instr} {s t : State}

theorem Change.raise (e : Evt) : Change i s (s.raise e) :=
  .registers (s.evtPend ||| e.flag) s.hcrc s.txHdr s.ctrl s.evtMask s.rxSel (e.count s.cnt) s.replies (.or _ _)

theorem Change.refl : Change i s s :=
  .registers s.evtPend s.hcrc s.txHdr s.ctrl s.evtMask s.rxSel s.cnt s.replies (.refl _)

/-! The commands, under their own names or written to CMD. -/

theorem execTxSend_change {a : Bool} (h : execTxSend a s = .next t) : Change i s t := by
  unfold execTxSend at h
  split_ifs at h with hstaged hbad <;> cases h
  · exact .raise _
  · exact .raise _
  · obtain ⟨-, hlen⟩ := not_or.mp hbad
    have hlen' : (s.txHdr.len.setWidth 12).toNat = s.txHdr.len.toNat := by
      rw [BitVec.toNat_setWidth, Nat.mod_eq_of_lt (show _ < 4096 from Nat.lt_succ_of_le (not_lt.mp hlen))]
    exact .stage _ (Bool.eq_false_iff.mpr hstaged) (by rw [hlen'])

theorem execTxCancel_change (h : execTxCancel s = .next t) : Change i s t := by
  unfold execTxCancel at h
  split_ifs at h with hwaiting <;> cases h
  · exact .cancel hwaiting.2
  · exact .raise _

/-- A pop leaves a suffix of every queue. -/
theorem popRx_suffix (c d : Fin 7) : (s.popRx c).rxq[d] <:+ s.rxq[d] := by
  rw [State.popRx_rxq]
  rcases eq_or_ne c d with rfl | hne
  · exact (Vector.getElem_set_self c.isLt).symm ▸ List.tail_suffix _
  · exact (Vector.getElem_set_ne c.isLt d.isLt (Fin.val_ne_of_ne hne)).symm ▸ List.suffix_rfl

theorem execRxPop_change {c : Byte} (h : execRxPop c s = .next t) : Change i s t := by
  unfold execRxPop at h
  split at h
  · cases h
    exact .raise _
  · split_ifs at h <;> cases h
    · exact .raise _
    · exact .dequeue _ _ (popRx_suffix _) List.suffix_rfl

theorem execDecAbort_change (h : execDecAbort s = .next t) : Change i s t := by
  cases hd : s.dstate.inFrame
  · cases (execDecAbort_not_inFrame hd).symm.trans h
    exact .abort _ _ (.refl _)
  · cases (execDecAbort_inFrame hd).symm.trans h
    exact .abort _ _ (.or _ _)

/-- What a command word decodes to is encoded as a command word. -/
theorem encode_space_of_decodeCommand {v : Word} {c : Instr} (h : decodeCommand v = .ok c) : (encode c).1 = .command := by
  unfold decodeCommand at h
  split at h <;> cases h <;> rfl

/-- A command makes the same changes under either name. -/
theorem exec_command_change {c : Instr} (hc : (encode c).1 = .command) (h : exec c s = .next t) : Change i s t := by
  cases c with
  | nop => cases h; exact .refl
  | crcInit | crcByte _ => cases h; exact .registers _ _ _ _ _ _ _ _ (.refl _)
  | cntClear => cases h; exact .registers _ _ _ _ _ _ _ _ (.refl _)
  | txSend a => exact execTxSend_change h
  | txCancel => exact execTxCancel_change h
  | rxPop n => exact execRxPop_change h
  | rxqClear =>
    cases h
    refine .dequeue _ _ (fun d => ?_) List.suffix_rfl
    rw [show (Vector.replicate 7 [])[d] = ([] : List FrameRecord) from Vector.getElem_replicate d.isLt]
    exact List.nil_suffix
  | decAbort => exact execDecAbort_change h
  | tokAck e => cases h; exact .token _ fun _ => rfl
  | tokNack e r => cases h; exact .token _ nofun
  | tokClear => cases h; exact .dequeue _ _ (fun _ => List.suffix_rfl) List.nil_suffix
  | _ => cases hc

/-! The host port. -/

theorem execute_change {v : Word} (h : execute v s = .next t) : Change i s t := by
  cases hdec : decodeCommand v with
  | error e =>
    cases (execute_of_error hdec s).symm.trans h
    exact .raise _
  | ok c => exact exec_command_change (encode_space_of_decodeCommand hdec) ((execute_of_ok hdec s).symm.trans h)

theorem writeReg_change {r : Reg} {v : Word} (h : writeReg r v s = .next t) : Change (.hostWrite r.offset v) s t := by
  cases r with
  | cmd => exact execute_change h
  | evtPend => cases h; exact .acknowledge v rfl
  | nextId => cases h; exact .nextId v rfl
  | txHdr =>
    unfold writeReg at h
    split_ifs at h <;> cases h
    · exact .raise _
    · exact .registers _ _ _ _ _ _ _ _ (.refl _)
  | ctrl | evtMask | rxSel => cases h; exact .registers _ _ _ _ _ _ _ _ (.refl _)
  | _ => cases h; exact .raise _

/-- An offset that names a register is the register's. -/
theorem eq_offset_of_target {off : Half} {r : Reg} (h : target off = .reg r) : off = r.offset := by
  unfold target at h
  split_ifs at h
  split at h <;> cases h
  exact eq_offset_of_regAt ‹_›

theorem execHostWrite_change {off : Half} {v : Word} (h : execHostWrite off v s = .next t) :
    Change (.hostWrite off v) s t := by
  rcases execHostWrite_cases off v s with hw | ⟨_, -, hstaged, hw⟩ | ⟨r, hr, hw⟩ <;> rw [hw] at h
  · cases h; exact .raise _
  · cases h; exact .store _ _ hstaged
  · exact eq_offset_of_target hr ▸ writeReg_change h

theorem execHostRead_change {off : Half} (h : execHostRead off s = .next t) : Change i s t := by
  have hall (tg : Target) (r : Reply) : Change i s ((s.touch tg).reply r) := by
    cases tg with
    | misaligned | unmapped => exact .registers _ _ _ _ _ _ _ _ (.or s.evtPend Evt.reject.flag)
    | reg _ | txbuf _ | rxwin _ => exact .registers _ _ _ _ _ _ _ _ (.refl s.evtPend)
  cases h
  exact hall _ _

/-! Every instruction. -/

/-- The one lemma about every instruction: its next state is one of the changes. -/
theorem exec_change (h : exec i s = .next t) : Change i s t := by
  cases i with
  | nop | crcInit | crcByte _ | txSend _ | txCancel | rxPop _ | rxqClear | decAbort | tokAck _ | tokNack _ _ | tokClear
  | cntClear => exact exec_command_change rfl h
  | rxByte _ | fnSetBaudRate | fnSetAckTimeout | fnTransmitToken | fnQueryFile | fnQueryFileCrc | fnReceiveFile
  | fnTransmitFile => cases h; exact .rxByte _
  | txPull => exact .pull rfl _ h
  | hostRead off => exact execHostRead_change h
  | hostWrite off v => exact execHostWrite_change h
  | reset => cases h; exact .reset rfl
  | _ => cases h; exact .emit _ _ rfl
end

/-- No external event is a frame type: it is a command or is named by itself. -/
theorem Stimulus.encode_instr_space (e : Stimulus) : (encode e.instr).1 ≠ .format := by
  cases e with
  | hostWrite off v =>
    change (encode (decodeWrite off v)).1 ≠ .format
    unfold decodeWrite
    split_ifs
    · split
      · next hdec =>
        rw [encode_space_of_decodeCommand hdec]
        decide
      · exact nofun
    · exact nofun
  | _ => exact nofun

/-- A step makes one change, apart from taking its event from `inbox`. -/
theorem step_change {s t : State} (h : step s = .next t) :
    ∃ i q, (encode i).1 ≠ .format ∧ Change i { s with inbox := q } t := by
  cases hin : s.inbox with
  | nil =>
    cases (step_of_inbox_nil hin).symm.trans h
    exact ⟨.nop, s.inbox, nofun, .refl⟩
  | cons e rest =>
    exact ⟨e.instr, rest, e.encode_instr_space, exec_change ((step_of_inbox_cons hin).symm.trans h)⟩

end Sys2Proof.Machine
end

section
/-! PROOFS. What an RX byte and a TX_PULL leave: the fields the invariants of every step speak of. -/

namespace Sys2Proof.Machine

/-! An RX byte. -/

theorem State.genToken_bitsKept {p : Byte} {s : State} (h : BitsKept p s.evtPend) (k : TokenRecord) :
    BitsKept p (s.genToken k).evtPend := by
  unfold State.genToken
  split_ifs
  · exact h
  · exact h.trans (.or _ _)

theorem State.deliver_bitsKept (r : FrameRecord) (s : State) : BitsKept s.evtPend (s.deliver r).evtPend := by
  rcases lt_or_ge s.rxq[channel r.type].length s.params.rxqDepth with h | h
  · rw [State.deliver_room h]
    split_ifs
    · exact State.genToken_bitsKept (.or _ _) _
    · exact .or _ _
  · rw [State.deliver_full h]
    exact .or _ _

theorem State.integrityError_bitsKept (t : BitVec 4) (len : BitVec 12) (s : State) :
    BitsKept s.evtPend (s.integrityError t len).evtPend := by
  simp only [State.integrityError]
  split_ifs
  · exact State.genToken_bitsKept (.or _ _) _
  · exact .or _ _

theorem State.emitFrame_bitsKept (t : BitVec 4) (len : BitVec 12) (s : State) :
    BitsKept s.evtPend (s.emitFrame t len).evtPend := by
  unfold State.emitFrame
  split_ifs
  · exact s.deliver_bitsKept _
  · exact s.integrityError_bitsKept t len

/-- What an RX byte does outside EMIT: the decoder's registers and DBUF alone change. -/
inductive State.Receives (s : State) : State → Prop where
  | decoder (d : DState) (f : Half) (i : Byte) (n : BitVec 12) (c x : Half) (m : Mem) (hm : s.dbuf.wf → m.wf) :
      State.Receives s { s with dstate := d, dfmt := f, did := i, didx := n, dcrc := c, dcrcx := x, dbuf := m }

theorem State.rxHunt1_receives (b : Byte) (s : State) : s.Receives (s.rxHunt1 b) := by
  unfold State.rxHunt1
  split_ifs <;> exact .decoder _ _ _ _ _ _ _ id

theorem State.rxHunt2_receives (b : Byte) (s : State) : s.Receives (s.rxHunt2 b) := by
  unfold State.rxHunt2
  split_ifs <;> exact .decoder _ _ _ _ _ _ _ id

/-- An RX byte that completes no frame. -/
theorem State.rxByte_receives {s : State} (hlast : s.dstate ≠ .readCrcLo) (hemit : s.dstate ≠ .emit) (b : Byte) :
    s.Receives (s.rxByte b) := by
  unfold State.rxByte
  split
  case h_1 => exact s.rxHunt1_receives b
  case h_2 => exact s.rxHunt2_receives b
  case h_6 => exact .decoder _ _ _ _ _ _ _ fun hm => Mem.wf_write hm _ _
  case h_8 h => exact absurd h hlast
  case h_9 h => exact absurd h hemit
  all_goals exact .decoder _ _ _ _ _ _ _ id

/-- What changes of the decoder and EMIT keep, an RX byte keeps. -/
theorem State.rxByte_keeps {P : State → Prop} (hrec : ∀ u v : State, u.Receives v → P u → P v)
    (hemit : ∀ u : State, P u → P u.emit) {s : State} (hs : P s) (b : Byte) : P (s.rxByte b) := by
  rcases eq_or_ne s.dstate .readCrcLo with hlast | hlast
  · rw [State.rxByte_of_readCrcLo b hlast]
    exact hemit _ (hrec s _ (.decoder _ _ _ _ _ _ _ id) hs)
  rcases eq_or_ne s.dstate .emit with hd | hd
  · have hrx : s.rxByte b = s.emit.rxHunt1 b := by simp only [State.rxByte, hd]
    rw [hrx]
    exact hrec _ _ (s.emit.rxHunt1_receives b) (hemit s hs)
  · exact hrec s _ (State.rxByte_receives hlast hd b) hs

/-! A pull. -/

/-- What a pull can change: the transmit path, EVT_PEND by more bits, the counters and the replies. -/
inductive State.Transmits (s : State) : State → Prop where
  | transmitter (q : List TokenRecord) (i : Byte) (h : TxHdr) (st : Bool) (snap : TxSnap) (src : TxSrc) (f : List Byte)
      (pos : BitVec 13) (p : Byte) (n : Counters) (rs : List Reply) (hq : q <:+ s.tokq) (hp : BitsKept s.evtPend p) :
      State.Transmits s { s with
        tokq := q, nextId := i, txHdr := h, txStaged := st, txSnap := snap, txsrc := src, txframe := f, txpos := pos
        evtPend := p, cnt := n, replies := rs }

theorem State.Transmits.trans {s t u : State} (hst : s.Transmits t) (htu : t.Transmits u) : s.Transmits u := by
  obtain ⟨_, _, _, _, _, _, _, _, _, _, _, hq, hp⟩ := hst
  obtain ⟨_, _, _, _, _, _, _, _, _, _, _, hq', hp'⟩ := htu
  exact .transmitter _ _ _ _ _ _ _ _ _ _ _ (hq'.trans hq) (hp.trans hp')

theorem State.finishFrame_transmits (s : State) : s.Transmits s.finishFrame := by
  unfold State.finishFrame
  cases s.txsrc with
  | host => exact .transmitter _ _ _ _ _ _ _ _ _ _ _ List.suffix_rfl (.or _ _)
  | none | token => exact .transmitter _ _ _ _ _ _ _ _ _ _ _ List.suffix_rfl (.refl _)

theorem State.reply_transmits (r : Reply) (s : State) : s.Transmits (s.reply r) :=
  .transmitter _ _ _ _ _ _ _ _ _ _ _ List.suffix_rfl (.refl _)

theorem State.sendByte_transmits (s : State) : s.Transmits s.sendByte := by
  have hnext : s.Transmits { s with txpos := s.txpos + 1 } :=
    .transmitter _ _ _ _ _ _ _ _ _ _ _ List.suffix_rfl (.refl _)
  rcases s.sendByte_cases with ⟨-, h⟩ | ⟨b, -, -, h⟩ | ⟨b, -, -, h⟩ <;> rw [h]
  · exact s.reply_transmits _
  · exact (hnext.trans (State.finishFrame_transmits _)).trans (State.reply_transmits _ _)
  · exact hnext.trans (State.reply_transmits _ _)

theorem State.startHost_transmits (s : State) : s.Transmits s.startHost := by
  unfold State.startHost
  split_ifs <;> exact .transmitter _ _ _ _ _ _ _ _ _ _ _ List.suffix_rfl (.refl _)

/-- A pull, by what it selects: nothing; or a frame, the one in transmission, a token's or the staged one, whose next byte it
sends. -/
theorem execTxPull_cases {s t : State} (h : execTxPull s = .next t) :
    (s.txsrc = .none ∧ s.tokq = [] ∧ s.txStaged = false ∧ t = s.reply .idle) ∨
    (s.txsrc ≠ .none ∧ t = s.sendByte) ∨
    (∃ k rest, s.txsrc = .none ∧ s.tokq = k :: rest ∧ t = (s.startToken k rest).sendByte) ∨
    (s.txsrc = .none ∧ s.tokq = [] ∧ s.txStaged = true ∧ t = s.startHost.sendByte) := by
  unfold execTxPull at h
  rcases s.selectFrame_cases with ⟨hsrc, hsel⟩ | ⟨k, rest, hsrc, hq, hsel⟩ | ⟨hsrc, hq, hst, hsel⟩ |
    ⟨hsrc, hq, hst, hsel⟩ <;> rw [hsel] at h <;> cases h
  · exact .inr (.inl ⟨hsrc, rfl⟩)
  · exact .inr (.inr (.inl ⟨k, rest, hsrc, hq, rfl⟩))
  · exact .inr (.inr (.inr ⟨hsrc, hq, hst, rfl⟩))
  · exact .inl ⟨hsrc, hq, hst, rfl⟩

theorem execTxPull_transmits {s t : State} (h : execTxPull s = .next t) : s.Transmits t := by
  rcases execTxPull_cases h with ⟨-, -, -, rfl⟩ | ⟨-, rfl⟩ | ⟨k, rest, -, hq, rfl⟩ | ⟨-, -, -, rfl⟩
  · exact s.reply_transmits _
  · exact s.sendByte_transmits
  · have hstart : s.Transmits (s.startToken k rest) :=
      .transmitter _ _ _ _ _ _ _ _ _ _ _ (hq ▸ List.suffix_cons k rest) (.refl _)
    exact hstart.trans (State.sendByte_transmits _)
  · exact s.startHost_transmits.trans (State.sendByte_transmits _)

end Sys2Proof.Machine
end

section
/-! PROOFS. The invariants of every step: memory, decoder, queues, transmitter. -/

namespace Sys2Proof.Machine

/-! Memory and parameters. -/

/-- The parameters and the canonical form of the buffers, as one predicate of the state. -/
def State.MemoryOf (p : Params) (s : State) : Prop := s.params = p ∧ s.memOk

theorem State.emit_memoryOf {p : Params} {s : State} (h : s.MemoryOf p) : s.emit.MemoryOf p := by
  obtain ⟨_, _, _, _, _, _, heq, -⟩ := s.emitFrame_cases (fmtType s.dfmt) (fmtLen s.dfmt)
  unfold State.emit
  rw [heq]
  exact h

theorem State.Receives.memoryOf {p : Params} {s t : State} (h : s.Receives t) (hs : s.MemoryOf p) : t.MemoryOf p := by
  obtain ⟨_, _, _, _, _, _, _, hm⟩ := h
  obtain ⟨hp, htx, hd⟩ := hs
  exact ⟨hp, htx, hm hd⟩

theorem Change.memoryOf {i : Instr} {s t : State} {p : Params} (hi : (encode i).1 ≠ .format) (hp : p.ok)
    (h : Change i s t) (hs : s.MemoryOf p) : t.MemoryOf p := by
  cases h with
  | rxByte b => exact State.rxByte_keeps (fun _ _ => State.Receives.memoryOf) (fun _ => State.emit_memoryOf) hs b
  | pull _ _ ht =>
    cases execTxPull_transmits ht
    exact hs
  | emit _ _ hf => exact absurd hf hi
  | store n b =>
    obtain ⟨hpar, htx, hd⟩ := hs
    exact ⟨hpar, Mem.wf_write htx n b, hd⟩
  | token k =>
    rw [State.genToken_eq]
    exact hs
  | reset =>
    obtain ⟨rfl, -, -⟩ := hs
    obtain ⟨-, -, -, -, hinit⟩ := hp
    exact ⟨rfl, hinit, Mem.wf_nil⟩
  | _ => exact hs

/-- Settles O52. -/
theorem stepKeepsMemory : Obligations.StepKeepsMemory := by
  intro s t hp hs h
  obtain ⟨i, q, hi, hc⟩ := step_change h
  exact hc.memoryOf hi hp ⟨rfl, hs⟩

end Sys2Proof.Machine
end

section
/-! PROOFS. The decoder's invariant (10_state.md R33, R34, R54). -/

namespace Sys2Proof.Machine

/-- The decoder is legal, and DBUF canonical so that the next payload byte is read back. -/
def State.decoderSafe (s : State) : Prop := s.dbuf.wf ∧ s.decoderOk

/-- A legal decoder has received at most the length of its format word, so hunting keeps it legal. -/
theorem State.didx_le_of_didxOk {s : State} (h : s.didxOk) : s.didx ≤ fmtLen s.dfmt := by
  unfold State.didxOk at h
  split at h
  case h_1 | h_2 => exact h
  case h_3 | h_4 | h_5 =>
    rw [h]
    exact Nat.zero_le _
  case h_6 => exact BitVec.le_of_lt h
  case h_7 | h_8 => exact BitVec.le_of_eq h
  case h_9 => exact h.elim

/-- A legal decoder that is sent hunting stays legal. -/
theorem State.decoderOk_hunt {s : State} (h : s.decoderOk) {d : DState} (hd : d.hunting) :
    ({ s with dstate := d } : State).decoderOk := by
  obtain ⟨hidx, hcrc⟩ := h
  refine ⟨?_, hcrc⟩
  rcases hd with rfl | rfl <;> exact State.didx_le_of_didxOk (s := s) hidx

theorem State.emitFrame_decoderOk {t : BitVec 4} {len : BitVec 12} {s : State} (h : s.didx ≤ fmtLen s.dfmt)
    (hcrc : s.dcrc = crcOf (s.dbuf.slice s.didx.toNat)) : (s.emitFrame t len).decoderOk := by
  obtain ⟨_, _, _, _, _, _, heq, -⟩ := s.emitFrame_cases t len
  rw [heq]
  exact ⟨h, hcrc⟩

/-- A payload byte is folded into DCRC as it becomes the last byte below DIDX (R227). -/
theorem State.rxPayload_decoderOk {s : State} (hm : s.dbuf.wf) (hidx : s.didx < fmtLen s.dfmt)
    (hcrc : s.dcrc = crcOf (s.dbuf.slice s.didx.toNat)) (b : Byte) : (s.rxPayload b).decoderOk := by
  have hroom : s.didx.toNat < Config.maxPayload := by
    change s.didx.toNat < 4095
    bv_omega
  have hsucc : (s.didx + 1).toNat = s.didx.toNat + 1 := by bv_omega
  have hfold : crcUpdate s.dcrc b = crcOf ((s.dbuf.write s.didx.toNat b).slice (s.didx + 1).toNat) := by
    rw [hsucc, Mem.slice_write hm hroom, crcOf_append, ← hcrc]
    rfl
  unfold State.rxPayload
  split_ifs with hlast
  · exact ⟨hlast, hfold⟩
  · refine ⟨?_, hfold⟩
    change s.didx + 1 < fmtLen s.dfmt
    bv_omega

theorem State.rxByte_decoderOk {s : State} (hm : s.dbuf.wf) (h : s.decoderOk) (b : Byte) : (s.rxByte b).decoderOk := by
  obtain ⟨hidx, hcrc⟩ := h
  cases hd : s.dstate with
  | huntSync1 =>
    rw [State.rxByte_of_huntSync1 b hd]
    unfold State.rxHunt1
    split_ifs
    · exact State.decoderOk_hunt ⟨hidx, hcrc⟩ (.inr rfl)
    · exact ⟨hidx, hcrc⟩
  | huntSync2 =>
    rw [State.rxByte_of_huntSync2 b hd]
    unfold State.rxHunt2
    split_ifs
    · exact ⟨rfl, rfl⟩
    · exact ⟨hidx, hcrc⟩
    · exact State.decoderOk_hunt ⟨hidx, hcrc⟩ (.inl rfl)
  | readFormatHi =>
    rw [State.rxByte_of_readFormatHi b hd]
    simp only [State.didxOk, hd] at hidx
    exact ⟨hidx, hcrc⟩
  | readFormatLo =>
    rw [State.rxByte_of_readFormatLo b hd]
    simp only [State.didxOk, hd] at hidx
    exact ⟨hidx, hcrc⟩
  | readId =>
    rw [State.rxByte_of_readId b hd]
    simp only [State.didxOk, hd] at hidx
    unfold State.rxId
    split_ifs with hlen
    · exact ⟨hidx.trans hlen.symm, hcrc⟩
    · refine ⟨?_, hcrc⟩
      change s.didx < fmtLen s.dfmt
      bv_omega
  | readPayload =>
    rw [State.rxByte_of_readPayload b hd]
    simp only [State.didxOk, hd] at hidx
    exact State.rxPayload_decoderOk hm hidx hcrc b
  | readCrcHi =>
    rw [State.rxByte_of_readCrcHi b hd]
    simp only [State.didxOk, hd] at hidx
    exact ⟨hidx, hcrc⟩
  | readCrcLo =>
    rw [State.rxByte_of_readCrcLo b hd]
    exact State.emitFrame_decoderOk (s := s.rxCrcLo b) (State.didx_le_of_didxOk (s := s) hidx) hcrc
  | emit =>
    simp only [State.didxOk, hd] at hidx

theorem Change.decoderOk {i : Instr} {s t : State} (hi : (encode i).1 ≠ .format) (h : Change i s t) (hm : s.dbuf.wf)
    (hs : s.decoderOk) : t.decoderOk := by
  cases h with
  | rxByte b => exact State.rxByte_decoderOk hm hs b
  | pull _ _ ht =>
    cases execTxPull_transmits ht
    exact hs
  | emit _ _ hf => exact absurd hf hi
  | abort => exact State.decoderOk_hunt hs (.inl rfl)
  | token k =>
    rw [State.genToken_eq]
    exact hs
  | reset => exact ⟨Nat.zero_le _, rfl⟩
  | _ => exact hs

/-- Settles O53. -/
theorem stepKeepsDecoder : Obligations.StepKeepsDecoder := by
  intro s t hm hs h
  obtain ⟨i, q, hi, hc⟩ := step_change h
  exact hc.decoderOk hi hm hs

end Sys2Proof.Machine
end

section
/-! PROOFS. The queues' invariants (10_state.md R36 to R38). -/

namespace Sys2Proof.Machine

/-! The channel queues. -/

/-- Capacity, valid frames only, each in its channel: `rxqOk` of a vector of queues. -/
def QueuesOk (depth : Nat) (q : Vector (List FrameRecord) 7) : Prop :=
  ∀ c : Fin 7, q[c].length ≤ depth ∧ ∀ r ∈ q[c], r.ok ∧ channel r.type = c

theorem QueuesOk.push {depth : Nat} {q : Vector (List FrameRecord) 7} (h : QueuesOk depth q) {r : FrameRecord}
    (hroom : q[channel r.type].length < depth) (hr : r.ok) :
    QueuesOk depth (q.set (channel r.type) (q[channel r.type] ++ [r])) := by
  intro c
  obtain ⟨hlen, hall⟩ := h c
  rcases eq_or_ne (channel r.type) c with rfl | hne
  · rw [show (q.set _ _)[channel r.type] = _ from Vector.getElem_set_self (channel r.type).isLt]
    refine ⟨by rw [List.length_append]; exact hroom, fun r' hr' => ?_⟩
    rcases List.mem_append.mp hr' with hold | hnew
    · exact hall r' hold
    · obtain rfl := List.mem_singleton.mp hnew
      exact ⟨hr, rfl⟩
  · rw [show (q.set _ _)[c] = _ from Vector.getElem_set_ne (channel r.type).isLt c.isLt (Fin.val_ne_of_ne hne)]
    exact ⟨hlen, hall⟩

theorem QueuesOk.of_suffix {depth : Nat} {q q' : Vector (List FrameRecord) 7} (h : QueuesOk depth q)
    (hsuf : ∀ c : Fin 7, q'[c] <:+ q[c]) : QueuesOk depth q' := fun c =>
  ⟨(hsuf c).length_le.trans (h c).1, fun r hr => (h c).2 r ((hsuf c).subset hr)⟩

theorem queuesOk_nil (depth : Nat) : QueuesOk depth (Vector.replicate 7 []) := fun c => by
  rw [show (Vector.replicate 7 ([] : List FrameRecord))[c] = [] from Vector.getElem_replicate c.isLt]
  exact ⟨Nat.zero_le _, nofun⟩

/-- EMIT of a frame received whole queues a valid record or none. -/
theorem State.emitFrame_rxqOk {t : BitVec 4} {len : BitVec 12} {s : State} (hs : s.rxqOk) (hidx : s.didx = len)
    (hcrc : s.dcrc = crcOf (s.dbuf.slice s.didx.toNat)) : (s.emitFrame t len).rxqOk := by
  obtain ⟨_, _, _, q, _, _, heq, hq, -⟩ := s.emitFrame_cases t len
  rw [heq]
  change QueuesOk s.params.rxqDepth q
  rcases hq with ⟨hmatch, hroom, rfl⟩ | rfl
  · refine QueuesOk.push hs (r := s.received t len) hroom ⟨Mem.length_slice _ _, ?_⟩
    change s.dcrcx = crcOf (s.dbuf.slice len.toNat)
    rw [← hmatch, hcrc, hidx]
  · exact hs

theorem State.rxByte_rxqOk {s : State} (hd : s.decoderOk) (hs : s.rxqOk) (b : Byte) : (s.rxByte b).rxqOk := by
  obtain ⟨hidx, hcrc⟩ := hd
  rcases eq_or_ne s.dstate .readCrcLo with hlast | hlast
  · rw [State.rxByte_of_readCrcLo b hlast]
    simp only [State.didxOk, hlast] at hidx
    exact State.emitFrame_rxqOk (s := s.rxCrcLo b) hs hidx hcrc
  · have hemit : s.dstate ≠ .emit := fun h => by simp only [State.didxOk, h] at hidx
    have hrec := State.rxByte_receives hlast hemit b
    generalize s.rxByte b = t at hrec
    cases hrec
    exact hs

theorem Change.rxqOk {i : Instr} {s t : State} (hi : (encode i).1 ≠ .format) (h : Change i s t) (hd : s.decoderOk)
    (hs : s.rxqOk) : t.rxqOk := by
  cases h with
  | rxByte b => exact State.rxByte_rxqOk hd hs b
  | pull _ _ ht =>
    cases execTxPull_transmits ht
    exact hs
  | emit _ _ hf => exact absurd hf hi
  | token k =>
    rw [State.genToken_eq]
    exact hs
  | dequeue q k hq => exact QueuesOk.of_suffix hs hq
  | reset => exact queuesOk_nil _
  | _ => exact hs

/-- Settles O54. -/
theorem stepKeepsRxQueues : Obligations.StepKeepsRxQueues := by
  intro s t hd hs h
  obtain ⟨i, q, hi, hc⟩ := step_change h
  exact hc.rxqOk hi hd hs

/-! The token queue. -/

theorem State.genToken_tokqOk {s : State} (hs : s.tokqOk) {k : TokenRecord} (hk : k.kind = .ack → k.reason = 0) :
    (s.genToken k).tokqOk := by
  obtain ⟨hlen, hall⟩ := hs
  rcases lt_or_ge s.tokq.length s.params.tokqDepth with hroom | hfull
  · rw [State.genToken_room hroom]
    refine ⟨by rw [List.length_append]; exact hroom, fun k' hk' => ?_⟩
    rcases List.mem_append.mp hk' with hold | hnew
    · exact hall k' hold
    · exact List.mem_singleton.mp hnew ▸ hk
  · rw [State.genToken_full hfull]
    exact ⟨hlen, hall⟩

theorem State.tokqOk_of_suffix {s : State} (hs : s.tokqOk) {q : List TokenRecord} (hq : q <:+ s.tokq) :
    ({ s with tokq := q } : State).tokqOk :=
  ⟨hq.length_le.trans hs.1, fun k hk => hs.2 k (hq.subset hk)⟩

theorem State.emitFrame_tokqOk (t : BitVec 4) (len : BitVec 12) {s : State} (hs : s.tokqOk) :
    (s.emitFrame t len).tokqOk := by
  obtain ⟨_, _, q, _, _, _, heq, -, hq⟩ := s.emitFrame_cases t len
  rw [heq]
  rcases hq with rfl | ⟨k, hroom, rfl, hk⟩
  · exact hs
  · have h := State.genToken_tokqOk hs hk
    rw [State.genToken_room hroom] at h
    exact h

theorem Change.tokqOk {i : Instr} {s t : State} (h : Change i s t) (hs : s.tokqOk) : t.tokqOk := by
  cases h with
  | rxByte b =>
    refine State.rxByte_keeps (P := State.tokqOk) (fun u v huv hu => ?_) (fun u => State.emitFrame_tokqOk _ _) hs b
    cases huv
    exact hu
  | pull _ _ ht =>
    obtain ⟨_, _, _, _, _, _, _, _, _, _, _, hq, -⟩ := execTxPull_transmits ht
    exact State.tokqOk_of_suffix hs hq
  | emit _ _ _ => exact State.emitFrame_tokqOk _ _ hs
  | token k hk => exact State.genToken_tokqOk hs hk
  | dequeue _ k _ hk => exact State.tokqOk_of_suffix hs hk
  | reset => exact ⟨Nat.zero_le _, nofun⟩
  | _ => exact hs

/-- Settles O55. -/
theorem stepKeepsTokenQueue : Obligations.StepKeepsTokenQueue := by
  intro s t hs h
  obtain ⟨i, q, -, hc⟩ := step_change h
  exact hc.tokqOk hs

end Sys2Proof.Machine
end

section
/-! PROOFS. The transmitter's invariant (10_state.md R42, R54; 41_encoder_mux.md R183, R185). -/

namespace Sys2Proof.Machine

/-- A staged frame with its own CRC, and a serialiser that is idle or within a frame. -/
def State.TransmitterOk (s : State) : Prop := s.stagedOk ∧ s.serialiserOk

/-- With nothing staged, no host frame is in transmission. -/
theorem State.txsrc_ne_host_of_unstaged {s : State} (hs : s.serialiserOk) (h : s.txStaged = false) : s.txsrc ≠ .host := by
  intro hsrc
  simp only [State.serialiserOk, hsrc, h] at hs
  exact Bool.false_ne_true hs.1

/-- Unless a host frame is in transmission, the serialiser does not depend on what is staged. -/
theorem State.serialiserOk_restage {s : State} (hs : s.serialiserOk) (hsrc : s.txsrc ≠ .host) (st : Bool) (snap : TxSnap)
    (m : Mem) : ({ s with txStaged := st, txSnap := snap, txbuf := m } : State).serialiserOk := by
  unfold State.serialiserOk at hs ⊢
  cases h : s.txsrc <;> simp only [h] at hs ⊢
  · exact hs
  · exact absurd h hsrc
  · exact hs

/-- A frame in transmission has a byte still to send (R54). -/
theorem State.txpos_lt_of_serialiserOk {s : State} (hs : s.serialiserOk) (hsrc : s.txsrc ≠ .none) :
    s.txpos.toNat < s.txframe.length := by
  unfold State.serialiserOk at hs
  split at hs
  case h_1 h => exact absurd h hsrc
  case h_2 => exact hs.2.1
  case h_3 => exact hs.1

/-- The serialiser goes on to a byte that its frame has. -/
theorem State.serialiserOk_advance {s : State} (hs : s.serialiserOk) (hsrc : s.txsrc ≠ .none) {n : BitVec 13}
    (hn : n.toNat < s.txframe.length) : ({ s with txpos := n } : State).serialiserOk := by
  unfold State.serialiserOk at hs ⊢
  cases h : s.txsrc <;> simp only [h] at hs ⊢
  · exact absurd h hsrc
  · exact ⟨hs.1, hn, hs.2.2⟩
  · exact ⟨hn, hs.2⟩

/-- The end of a frame leaves the serialiser idle, and a host frame unstaged. -/
theorem State.finishFrame_transmitterOk {s : State} (hs : s.stagedOk) : s.finishFrame.TransmitterOk := by
  refine ⟨?_, rfl, rfl⟩
  unfold State.finishFrame
  cases s.txsrc with
  | host => exact nofun
  | none | token => exact hs

theorem State.sendByte_transmitterOk {s : State} (hs : s.TransmitterOk) (hsrc : s.txsrc ≠ .none) :
    s.sendByte.TransmitterOk := by
  obtain ⟨hst, hser⟩ := hs
  have hpos := State.txpos_lt_of_serialiserOk hser hsrc
  rcases s.sendByte_cases with ⟨hpast, -⟩ | ⟨b, -, -, h⟩ | ⟨b, hlast, -, h⟩
  · omega
  · rw [h]
    exact State.finishFrame_transmitterOk (s := { s with txpos := s.txpos + 1 }) hst
  · have hnext : (s.txpos + 1).toNat < s.txframe.length := by
      rw [BitVec.toNat_add]
      exact (Nat.mod_le _ _).trans_lt hlast
    rw [h]
    exact ⟨hst, State.serialiserOk_advance hser hsrc hnext⟩

/-! What a pull starts. -/

theorem length_encodeFrame (t : BitVec 4) (id : Byte) (p : List Byte) : (encodeFrame t id p).length = 7 + p.length :=
  length_frameBytes _ _ _ _

theorem length_tokenFrame (k : TokenRecord) (id : Byte) : 7 < (tokenFrame k id).length ∧ (tokenFrame k id).length ≤ 9 := by
  unfold tokenFrame
  cases k.kind <;> simp only [length_encodeFrame, List.length_cons, List.length_nil] <;> omega

theorem State.startToken_transmitterOk {s : State} (hs : s.stagedOk) (k : TokenRecord) (rest : List TokenRecord) :
    (s.startToken k rest).TransmitterOk :=
  ⟨hs, Nat.zero_lt_of_lt (length_tokenFrame k s.nextId).1, k, s.nextId, rfl⟩

/-- The staged frame's bytes are its encoding when its captured CRC is that of its payload (R183). -/
theorem State.hostFrame_eq_encodeFrame {s : State} (hcrc : s.txSnap.crc = crcOf (s.txbuf.slice s.txSnap.len.toNat))
    (id : Byte) : s.hostFrame id = encodeFrame s.txSnap.type id (s.txbuf.slice s.txSnap.len.toNat) := by
  unfold State.hostFrame encodeFrame
  rw [Mem.length_slice, BitVec.ofNat_toNat, BitVec.setWidth_eq, hcrc]

theorem State.startHost_transmitterOk {s : State} (hs : s.stagedOk) (hst : s.txStaged = true) :
    s.startHost.TransmitterOk := by
  have hframe := State.hostFrame_eq_encodeFrame (hs hst)
  have hpos (id : Byte) : 0 < (s.hostFrame id).length := by
    rw [hframe, length_encodeFrame]
    omega
  unfold State.startHost
  split_ifs
  · exact ⟨hs, hst, hpos s.nextId, hframe s.nextId⟩
  · exact ⟨hs, hst, hpos s.txSnap.id, hframe s.txSnap.id⟩

theorem execTxPull_transmitterOk {s t : State} (hs : s.TransmitterOk) (h : execTxPull s = .next t) : t.TransmitterOk := by
  obtain ⟨hst, hser⟩ := hs
  rcases execTxPull_cases h with ⟨-, -, -, rfl⟩ | ⟨hsrc, rfl⟩ | ⟨k, rest, -, -, rfl⟩ | ⟨-, -, hstaged, rfl⟩
  · exact ⟨hst, hser⟩
  · exact State.sendByte_transmitterOk ⟨hst, hser⟩ hsrc
  · exact State.sendByte_transmitterOk (State.startToken_transmitterOk hst k rest) nofun
  · refine State.sendByte_transmitterOk (State.startHost_transmitterOk hst hstaged) ?_
    rw [State.startHost_txsrc]
    exact nofun

theorem Change.transmitterOk {i : Instr} {s t : State} (h : Change i s t) (hs : s.TransmitterOk) : t.TransmitterOk := by
  have hemit {u : State} (hu : u.TransmitterOk) (ty : BitVec 4) (len : BitVec 12) : (u.emitFrame ty len).TransmitterOk := by
    obtain ⟨_, _, _, _, _, _, heq, -⟩ := u.emitFrame_cases ty len
    rw [heq]
    exact hu
  cases h with
  | rxByte b =>
    refine State.rxByte_keeps (P := State.TransmitterOk) (fun u v huv hu => ?_) (fun u hu => hemit hu _ _) hs b
    cases huv
    exact hu
  | pull _ _ ht => exact execTxPull_transmitterOk hs ht
  | emit => exact hemit hs _ _
  | store n b hst =>
    have hsrc := State.txsrc_ne_host_of_unstaged hs.2 hst
    exact ⟨fun h => absurd h (Bool.eq_false_iff.mp hst), State.serialiserOk_restage hs.2 hsrc _ _ _⟩
  | stage snap hst hcrc =>
    have hsrc := State.txsrc_ne_host_of_unstaged hs.2 hst
    exact ⟨fun _ => hcrc, State.serialiserOk_restage hs.2 hsrc _ _ _⟩
  | cancel hsrc => exact ⟨nofun, State.serialiserOk_restage hs.2 hsrc _ _ _⟩
  | token k =>
    rw [State.genToken_eq]
    exact hs
  | reset => exact ⟨nofun, rfl, rfl⟩
  | _ => exact hs

/-- Settles O56. -/
theorem stepKeepsTransmitter : Obligations.StepKeepsTransmitter := by
  intro s t hst hser h
  obtain ⟨i, q, -, hc⟩ := step_change h
  exact hc.transmitterOk ⟨hst, hser⟩

end Sys2Proof.Machine
end

section
/-! PROOFS. NEXT_ID (41_encoder_mux.md R189) and the pending events (10_state.md R47), instruction by instruction. -/

namespace Sys2Proof.Machine

/-! NEXT_ID. -/

theorem State.sendByte_nextId (s : State) : s.sendByte.nextId = s.nextId := by
  have hfinish (u : State) : u.finishFrame.nextId = u.nextId := by
    unfold State.finishFrame
    cases u.txsrc <;> rfl
  rcases s.sendByte_cases with ⟨-, h⟩ | ⟨b, -, -, h⟩ | ⟨b, -, -, h⟩ <;> rw [h]
  · rfl
  · exact hfinish { s with txpos := s.txpos + 1 }
  · rfl

theorem State.startHost_nextId (s : State) :
    s.startHost.nextId = if s.txSnap.autoid = true then s.nextId + 1 else s.nextId := by
  unfold State.startHost
  split_ifs <;> rfl

/-- NEXT_ID after a pull: one more iff the pull starts a token or a staged frame with an automatic id. -/
theorem execTxPull_nextId {s t : State} (h : execTxPull s = .next t) :
    t.nextId =
      if s.txsrc = .none ∧ (s.tokq ≠ [] ∨ (s.txStaged = true ∧ s.txSnap.autoid = true)) then s.nextId + 1
      else s.nextId := by
  rcases execTxPull_cases h with ⟨hsrc, hq, hst, rfl⟩ | ⟨hsrc, rfl⟩ | ⟨k, rest, hsrc, hq, rfl⟩ | ⟨hsrc, hq, hst, rfl⟩
  · simp [hq, hst]
  · simp [hsrc, State.sendByte_nextId]
  · rw [State.sendByte_nextId]
    simp [hsrc, hq, State.startToken]
  · rw [State.sendByte_nextId, State.startHost_nextId]
    simp [hsrc, hq, hst]

/-- Settles O19: of the changes, a write of NEXT_ID, a pull and a reset alone touch NEXT_ID. -/
theorem nextIdAdvancesOnlyAtStart : Obligations.NextIdAdvancesOnlyAtStart := by
  have hemit (ty : BitVec 4) (len : BitVec 12) (u : State) : (u.emitFrame ty len).nextId = u.nextId := by
    obtain ⟨_, _, _, _, _, _, heq, -⟩ := u.emitFrame_cases ty len
    rw [heq]
  refine ⟨fun s hsrc hstart => ?_, fun i s t hreset hwrite hpull h => ?_⟩
  · obtain ⟨t, ht⟩ := everyInstructionCompletes .txPull s
    exact ⟨t, ht, (execTxPull_nextId ht).trans (if_pos ⟨hsrc, hstart⟩)⟩
  · cases exec_change h with
    | rxByte b =>
      refine State.rxByte_keeps (P := fun u => u.nextId = s.nextId) (fun u v huv hu => ?_)
        (fun u hu => (hemit _ _ u).trans hu) rfl b
      cases huv
      exact hu
    | pull hi _ ht => exact (execTxPull_nextId ht).trans (if_neg fun hc => hpull ⟨hi, hc⟩)
    | emit => exact hemit _ _ s
    | nextId v hi => exact absurd hi (hwrite v)
    | reset hi => exact absurd hi hreset
    | token k => rw [State.genToken_eq]
    | _ => rfl

/-! Pending events. -/

/-- Settles O48: of the changes, the write-one-to-clear and a reset alone clear a bit of EVT_PEND. -/
theorem pendingBitsAreSticky : Obligations.PendingBitsAreSticky := by
  intro i s t k hreset hk h
  cases exec_change h with
  | acknowledge v hi =>
    have hk8 : k < 8 := BitVec.lt_of_getLsbD hk
    have hbit := State.acknowledge_evtPend_getLsbD v s hk8
    cases hv : v.getLsbD k with
    | true => exact .inr ⟨v, hi, hv, hk8⟩
    | false => exact .inl (by rw [hbit, hk, hv]; rfl)
  | rxByte b =>
    refine .inl (State.rxByte_keeps (P := fun u => BitsKept s.evtPend u.evtPend) (fun u v huv hu => ?_)
      (fun u hu => hu.trans (u.emitFrame_bitsKept _ _)) (BitsKept.refl _) b k hk)
    cases huv
    exact hu
  | pull _ _ ht =>
    obtain ⟨_, _, _, _, _, _, _, _, _, _, _, -, hp⟩ := execTxPull_transmits ht
    exact .inl (hp k hk)
  | emit => exact .inl (s.emitFrame_bitsKept _ _ k hk)
  | registers _ _ _ _ _ _ _ _ hp => exact .inl (hp k hk)
  | abort _ _ hp => exact .inl (hp k hk)
  | token c => exact .inl (State.genToken_bitsKept (.refl _) c k hk)
  | reset hi => exact absurd hi hreset
  | _ => exact .inl hk

end Sys2Proof.Machine
end

section
/-! PROOFS. HCRC and `inbox` stand apart (10_state.md R32; 20_memory.md R90): only the CRC commands, the read of HCRC and a reset
see HCRC, and no instruction sees the events to come. -/

namespace Sys2Proof.Machine

/-- `s` with HCRC and the events to come replaced. An operation that commutes with every such replacement neither sees the two
nor changes them. -/
def State.setAside (x : Half) (q : List Stimulus) (s : State) : State := { s with hcrc := x, inbox := q }

/-- A meaning that neither sees nor changes HCRC and the events to come. -/
def IgnoresAside (f : State → Result) : Prop :=
  ∀ (s : State) (x : Half) (q : List Stimulus), f (s.setAside x q) = (f s).mapNext (State.setAside x q)

/-- What commutes with putting HCRC and the events to come back in place has left both. -/
theorem eq_setAside_of_commutes {f : State → Result} {s t : State} (h : f s = .next t)
    (hf : f (s.setAside s.hcrc s.inbox) = (f s).mapNext (State.setAside s.hcrc s.inbox)) :
    t = t.setAside s.hcrc s.inbox := by
  have hself : f s = (f s).mapNext (State.setAside s.hcrc s.inbox) := hf
  rw [h] at hself
  injection hself

/-! The shared operations. -/

section
variable (x : Half) (q : List Stimulus) (s : State)

@[simp] theorem State.setAside_dstate : (s.setAside x q).dstate = s.dstate := rfl
@[simp] theorem State.setAside_txsrc : (s.setAside x q).txsrc = s.txsrc := rfl
@[simp] theorem State.setAside_tokq : (s.setAside x q).tokq = s.tokq := rfl
@[simp] theorem State.setAside_txStaged : (s.setAside x q).txStaged = s.txStaged := rfl
@[simp] theorem State.setAside_txframe : (s.setAside x q).txframe = s.txframe := rfl
@[simp] theorem State.setAside_txpos : (s.setAside x q).txpos = s.txpos := rfl

theorem State.genToken_setAside (k : TokenRecord) : (s.setAside x q).genToken k = (s.genToken k).setAside x q := by
  rw [State.genToken_eq, State.genToken_eq]
  rfl

theorem State.deliver_setAside (r : FrameRecord) : (s.setAside x q).deliver r = (s.deliver r).setAside x q := by
  rcases lt_or_ge s.rxq[channel r.type].length s.params.rxqDepth with h | h
  · rw [State.deliver_room h, State.deliver_room (s := s.setAside x q) h, apply_ite (State.setAside x q),
      ← State.genToken_setAside]
    rfl
  · rw [State.deliver_full h, State.deliver_full (s := s.setAside x q) h]
    rfl

theorem State.integrityError_setAside (t : BitVec 4) (len : BitVec 12) :
    (s.setAside x q).integrityError t len = (s.integrityError t len).setAside x q := by
  simp only [State.integrityError, apply_ite (State.setAside x q), ← State.genToken_setAside]
  rfl

theorem State.emitFrame_setAside (t : BitVec 4) (len : BitVec 12) :
    (s.setAside x q).emitFrame t len = (s.emitFrame t len).setAside x q := by
  unfold State.emitFrame
  rw [State.deliver_setAside, State.integrityError_setAside, ← apply_ite (State.setAside x q)]
  rfl

theorem State.rxHunt1_setAside (b : Byte) : (s.setAside x q).rxHunt1 b = (s.rxHunt1 b).setAside x q := by
  simp only [State.rxHunt1, apply_ite (State.setAside x q)]
  rfl

theorem State.rxHunt2_setAside (b : Byte) : (s.setAside x q).rxHunt2 b = (s.rxHunt2 b).setAside x q := by
  simp only [State.rxHunt2, apply_ite (State.setAside x q)]
  rfl

theorem State.rxByte_setAside (b : Byte) : (s.setAside x q).rxByte b = (s.rxByte b).setAside x q := by
  unfold State.rxByte
  rw [State.setAside_dstate]
  cases s.dstate with
  | huntSync1 => exact s.rxHunt1_setAside x q b
  | huntSync2 => exact s.rxHunt2_setAside x q b
  | readCrcLo => exact (s.rxCrcLo b).emitFrame_setAside x q _ _
  | emit =>
    have hemit : (s.setAside x q).emit = s.emit.setAside x q := s.emitFrame_setAside x q _ _
    exact (congrArg (State.rxHunt1 b) hemit).trans (s.emit.rxHunt1_setAside x q b)
  | _ => rfl

theorem State.startHost_setAside : (s.setAside x q).startHost = s.startHost.setAside x q := by
  simp only [State.startHost, apply_ite (State.setAside x q)]
  rfl

theorem State.finishFrame_setAside : (s.setAside x q).finishFrame = s.finishFrame.setAside x q := by
  unfold State.finishFrame
  rw [State.setAside_txsrc]
  cases s.txsrc <;> rfl

theorem State.selectFrame_setAside : (s.setAside x q).selectFrame = s.selectFrame.map (State.setAside x q) := by
  unfold State.selectFrame
  simp only [State.setAside_txsrc, State.setAside_tokq, State.setAside_txStaged, State.startHost_setAside]
  cases s.txsrc with
  | none =>
    cases s.tokq with
    | cons k rest => rfl
    | nil =>
      simp only [apply_ite (Option.map (State.setAside x q))]
      rfl
  | _ => rfl

theorem State.sendByte_setAside : (s.setAside x q).sendByte = s.sendByte.setAside x q := by
  unfold State.sendByte
  simp only [State.setAside_txframe, State.setAside_txpos]
  rcases s.txframe.drop s.txpos.toNat with _ | ⟨b, _ | ⟨b', l⟩⟩
  · rfl
  · exact congrArg (State.reply (.byte b)) (State.finishFrame_setAside x q { s with txpos := s.txpos + 1 })
  · rfl
end

/-! The meanings. -/

theorem IgnoresAside.of_next {f : State → State} (h : ∀ x q s, f (State.setAside x q s) = (f s).setAside x q) :
    IgnoresAside fun s => .next (f s) := fun s x q => congrArg Host.Outcome.next (h x q s)

theorem execTxSend_ignoresAside (a : Bool) : IgnoresAside (execTxSend a) := by
  intro s x q
  simp only [execTxSend, apply_ite (Result.mapNext (State.setAside x q))]
  rfl

theorem execTxCancel_ignoresAside : IgnoresAside execTxCancel := by
  intro s x q
  simp only [execTxCancel, apply_ite (Result.mapNext (State.setAside x q))]
  rfl

theorem execRxPop_ignoresAside (c : Byte) : IgnoresAside (execRxPop c) := by
  intro s x q
  unfold execRxPop
  cases channelOf c.toNat with
  | none => rfl
  | some ch =>
    simp only [apply_ite (Result.mapNext (State.setAside x q))]
    rfl

theorem execDecAbort_ignoresAside : IgnoresAside execDecAbort := by
  intro s x q
  unfold execDecAbort
  rw [State.setAside_dstate]
  cases s.dstate.inFrame <;> rfl

theorem execTxPull_ignoresAside : IgnoresAside execTxPull := by
  intro s x q
  unfold execTxPull
  rw [State.selectFrame_setAside]
  cases s.selectFrame with
  | none => rfl
  | some u => exact congrArg _ (u.sendByte_setAside x q)

/-- A read, of HCRC too, does not see the events to come; of anything but HCRC, not HCRC either. -/
theorem State.readTarget_setAside {tg : Target} (x : Half) (q : List Stimulus) (s : State)
    (hx : tg = .reg .hcrc → x = s.hcrc) : (s.setAside x q).readTarget tg = s.readTarget tg := by
  cases tg with
  | reg r =>
    cases r with
    | hcrc => exact congrArg (BitVec.setWidth 32) (hx rfl)
    | _ => rfl
  | _ => rfl

theorem execHostRead_setAside {off : Half} (x : Half) (q : List Stimulus) (s : State)
    (hx : off = 0x014 → x = s.hcrc) :
    execHostRead off (s.setAside x q) = (execHostRead off s).mapNext (State.setAside x q) := by
  unfold execHostRead
  rw [State.readTarget_setAside x q s fun h => hx (eq_offset_of_target h)]
  cases target off <;> rfl

/-- The instructions HCRC belongs to: the CRC commands under either name, the read of HCRC, and RESET. -/
def usesHcrc : Instr → Bool
  | .crcInit | .crcByte _ | .reset => true
  | .hostRead off => off == 0x014
  | .hostWrite off v => off == 0x010 && (cmdOp v == 0x01 || cmdOp v == 0x02)
  | _ => false

/-- The commands, the frame types and the function bytes, and every event but a host write. -/
theorem exec_ignoresAside_of_ne {i : Instr} (hi : usesHcrc i = false) (hwrite : ∀ off v, i ≠ .hostWrite off v) :
    IgnoresAside (exec i) := by
  cases i with
  | crcInit | crcByte _ | reset => cases hi
  | hostWrite off v => exact absurd rfl (hwrite off v)
  | txSend a => exact execTxSend_ignoresAside a
  | txCancel => exact execTxCancel_ignoresAside
  | rxPop c => exact execRxPop_ignoresAside c
  | decAbort => exact execDecAbort_ignoresAside
  | txPull => exact execTxPull_ignoresAside
  | hostRead off => exact fun s x q => execHostRead_setAside x q s fun h => absurd h (by simpa [usesHcrc] using hi)
  | tokAck e => exact .of_next fun x q s => s.genToken_setAside x q _
  | tokNack e r => exact .of_next fun x q s => s.genToken_setAside x q _
  | nop | rxqClear | tokClear | cntClear => exact fun _ _ _ => rfl
  | rxByte _ | fnSetBaudRate | fnSetAckTimeout | fnTransmitToken | fnQueryFile | fnQueryFileCrc | fnReceiveFile
  | fnTransmitFile => exact .of_next fun x q s => s.rxByte_setAside x q _
  | _ => exact .of_next fun x q s => s.emitFrame_setAside x q _ _

/-- Of the command words, those of CRC_INIT and CRC_BYTE alone use HCRC. -/
theorem usesHcrc_eq_false_of_decode {v : Word} {i : Instr} (hinit : cmdOp v ≠ 0x01) (hbyte : cmdOp v ≠ 0x02)
    (h : decodeCommand v = .ok i) : usesHcrc i = false := by
  unfold decodeCommand at h
  split at h
  case h_2 hop => exact absurd hop hinit
  case h_3 hop => exact absurd hop hbyte
  all_goals cases h <;> rfl

theorem execute_ignoresAside {v : Word} (hinit : cmdOp v ≠ 0x01) (hbyte : cmdOp v ≠ 0x02) :
    IgnoresAside (execute v) := by
  cases h : decodeCommand v with
  | error e => exact funext (execute_of_error h) ▸ fun _ _ _ => rfl
  | ok i =>
    exact funext (execute_of_ok h) ▸
      exec_ignoresAside_of_ne (usesHcrc_eq_false_of_decode hinit hbyte h) (decodeCommand_ok_ne h).2

theorem writeReg_ignoresAside {r : Reg} (hr : r ≠ .cmd) (v : Word) : IgnoresAside (writeReg r v) := by
  intro s x q
  cases r with
  | cmd => exact absurd rfl hr
  | txHdr =>
    simp only [writeReg, apply_ite (Result.mapNext (State.setAside x q))]
    rfl
  | _ => rfl

theorem execHostWrite_ignoresAside {off : Half} {v : Word} (hcmd : off = 0x010 → cmdOp v ≠ 0x01 ∧ cmdOp v ≠ 0x02) :
    IgnoresAside (execHostWrite off v) := by
  intro s x q
  unfold execHostWrite
  cases htarget : target off with
  | reg r =>
    rcases eq_or_ne r .cmd with rfl | hr
    · obtain ⟨hinit, hbyte⟩ := hcmd (eq_offCmd_of_target htarget)
      exact execute_ignoresAside hinit hbyte s x q
    · exact writeReg_ignoresAside hr v s x q
  | txbuf i =>
    simp only [apply_ite (Result.mapNext (State.setAside x q))]
    rfl
  | _ => rfl

/-- Every instruction HCRC does not belong to. -/
theorem exec_ignoresAside {i : Instr} (hi : usesHcrc i = false) : IgnoresAside (exec i) := by
  by_cases hwrite : ∃ off v, i = .hostWrite off v
  · obtain ⟨off, v, rfl⟩ := hwrite
    refine execHostWrite_ignoresAside fun hoff => ?_
    simpa [usesHcrc, hoff] using hi
  · push Not at hwrite
    exact exec_ignoresAside_of_ne hi hwrite

/-- Settles O5: but for the read of HCRC, the instructions left are those that ignore it, and that read leaves it. -/
theorem hcrcIsolatedFromFrames : Obligations.HcrcIsolatedFromFrames := by
  intro i s t x hinit hbyte hreset hcmd h
  rcases eq_or_ne i (.hostRead 0x014) with rfl | hread
  · cases h
    exact ⟨rfl, fun hne => absurd rfl hne⟩
  have hi : usesHcrc i = false := by
    cases i with
    | crcInit => exact absurd rfl hinit
    | crcByte b => exact absurd rfl (hbyte b)
    | reset => exact absurd rfl hreset
    | hostRead off => simpa [usesHcrc] using hread
    | hostWrite off v =>
      have := hcmd off v rfl
      simpa [usesHcrc, cmdOp] using this
    | _ => rfl
  have hf := exec_ignoresAside hi
  have ht := eq_setAside_of_commutes h (hf s s.hcrc s.inbox)
  refine ⟨by rw [ht]; rfl, fun _ => ?_⟩
  have hset : exec i { s with hcrc := x } = Result.mapNext (State.setAside x s.inbox) (exec i s) := hf s x s.inbox
  rw [hset, h, ht]
  rfl

/-! The events to come. -/

/-- What commutes with replacing the events to come, HCRC left in place, neither sees nor changes them. -/
theorem next_inbox_of_commutes {f : State → Result} {s t : State} (h : f s = .next t)
    (hf : ∀ q, f (s.setAside s.hcrc q) = (f s).mapNext (State.setAside s.hcrc q)) (q : List Stimulus) :
    f { s with inbox := q } = .next { t with inbox := q } := by
  have hset : f { s with inbox := q } = (f s).mapNext (State.setAside s.hcrc q) := hf q
  rw [hset, h, eq_setAside_of_commutes h (hf s.inbox)]
  rfl

/-- A CRC command takes no note of the events to come. -/
theorem exec_crc_inbox {i : Instr} (hi : i = .crcInit ∨ ∃ b, i = .crcByte b) {s t : State} (h : exec i s = .next t)
    (q : List Stimulus) : exec i { s with inbox := q } = .next { t with inbox := q } := by
  rcases hi with rfl | ⟨b, rfl⟩ <;> cases h <;> rfl

/-- No instruction sees or changes the events to come. -/
theorem exec_inbox {i : Instr} {s t : State} (h : exec i s = .next t) (q : List Stimulus) :
    exec i { s with inbox := q } = .next { t with inbox := q } := by
  cases hi : usesHcrc i with
  | false => exact next_inbox_of_commutes h (exec_ignoresAside hi s s.hcrc) q
  | true =>
    cases i with
    | crcInit => exact exec_crc_inbox (.inl rfl) h q
    | crcByte b => exact exec_crc_inbox (.inr ⟨b, rfl⟩) h q
    | reset => cases h; rfl
    | hostRead off => exact next_inbox_of_commutes h (fun q => execHostRead_setAside s.hcrc q s fun _ => rfl) q
    | hostWrite off v =>
      simp only [usesHcrc, Bool.and_eq_true, Bool.or_eq_true, beq_iff_eq] at hi
      obtain ⟨rfl, hop | hop⟩ := hi
      · have hexec := exec_hostWrite_cmd_of_ok (decodeCommand_crcInit hop)
        rw [hexec] at h ⊢
        exact exec_crc_inbox (.inl rfl) h q
      · have hexec := exec_hostWrite_cmd_of_ok (decodeCommand_crcByte hop)
        rw [hexec] at h ⊢
        exact exec_crc_inbox (.inr ⟨_, rfl⟩) h q
    | _ => cases hi

/-- Settles O59: a step takes its event from `inbox`, and its instruction ignores the others. -/
theorem stepsPerformTheInbox : Obligations.StepsPerformTheInbox := by
  intro es rest s
  induction es generalizing s with
  | nil => exact ⟨s, rfl, rfl⟩
  | cons e es ih =>
    obtain ⟨u, hu⟩ := everyInstructionCompletes e.instr s
    obtain ⟨t, hperform, hsteps⟩ := ih u
    refine ⟨t, (perform_cons_next hu).trans hperform, ?_⟩
    have hstep : step { s with inbox := e :: es ++ rest } = .next { u with inbox := es ++ rest } :=
      (step_of_inbox_cons (s := { s with inbox := e :: es ++ rest }) rfl).trans (exec_inbox hu (es ++ rest))
    rw [List.length_cons]
    simp only [steps, hstep]
    exact hsteps

end Sys2Proof.Machine
end

section
/-! PROOFS. Encodings (30_encoding.md R101, R102, R107, R108, R112, R121): the round trip, the frame types, the table words. -/

namespace Sys2Proof.Machine

/-- Settles O44, instruction by instruction. -/
theorem decodeOfEncode : Obligations.DecodeOfEncode := by
  intro i
  cases i with
  | nop => exact Laws.RoundTrip.nop
  | crcInit => exact Laws.RoundTrip.crcInit
  | crcByte b => exact Laws.RoundTrip.crcByte b
  | txSend a => exact Laws.RoundTrip.txSend a
  | txCancel => exact Laws.RoundTrip.txCancel
  | rxPop c => exact Laws.RoundTrip.rxPop c
  | rxqClear => exact Laws.RoundTrip.rxqClear
  | decAbort => exact Laws.RoundTrip.decAbort
  | tokAck e => exact Laws.RoundTrip.tokAck e
  | tokNack e r => exact Laws.RoundTrip.tokNack e r
  | tokClear => exact Laws.RoundTrip.tokClear
  | cntClear => exact Laws.RoundTrip.cntClear
  | frameUnassigned0 n => exact Laws.RoundTrip.frameUnassigned0 n
  | frameConfiguration n => exact Laws.RoundTrip.frameConfiguration n
  | frameCommand n => exact Laws.RoundTrip.frameCommand n
  | frameData n => exact Laws.RoundTrip.frameData n
  | frameUnassigned4 n => exact Laws.RoundTrip.frameUnassigned4 n
  | frameUnassigned5 n => exact Laws.RoundTrip.frameUnassigned5 n
  | frameUnassigned6 n => exact Laws.RoundTrip.frameUnassigned6 n
  | frameUnassigned7 n => exact Laws.RoundTrip.frameUnassigned7 n
  | frameAck n => exact Laws.RoundTrip.frameAck n
  | frameNack n => exact Laws.RoundTrip.frameNack n
  | frameError n => exact Laws.RoundTrip.frameError n
  | frameUnassignedB n => exact Laws.RoundTrip.frameUnassignedB n
  | frameUnassignedC n => exact Laws.RoundTrip.frameUnassignedC n
  | frameUnassignedD n => exact Laws.RoundTrip.frameUnassignedD n
  | frameUnassignedE n => exact Laws.RoundTrip.frameUnassignedE n
  | frameUnassignedF n => exact Laws.RoundTrip.frameUnassignedF n
  | fnSetBaudRate => exact Laws.RoundTrip.fnSetBaudRate
  | fnSetAckTimeout => exact Laws.RoundTrip.fnSetAckTimeout
  | fnTransmitToken => exact Laws.RoundTrip.fnTransmitToken
  | fnQueryFile => exact Laws.RoundTrip.fnQueryFile
  | fnQueryFileCrc => exact Laws.RoundTrip.fnQueryFileCrc
  | fnReceiveFile => exact Laws.RoundTrip.fnReceiveFile
  | fnTransmitFile => exact Laws.RoundTrip.fnTransmitFile
  | rxByte b => exact Laws.RoundTrip.rxByte b
  | txPull => exact Laws.RoundTrip.txPull
  | hostRead off => exact Laws.RoundTrip.hostRead off
  | hostWrite off v => exact Laws.RoundTrip.hostWrite off v
  | reset => exact Laws.RoundTrip.reset

/-! The frame types. -/

section
variable {row : (BitVec 12 → Instr) × BitVec 4 × Fin 7}

/-- What the table says of a frame type, row by row: it encodes to its own format word, and its channel is `channel`'s. -/
theorem frameRow_spec (h : row ∈ frameRows) (n : BitVec 12) :
    (row.1 n).wellFormed = true ∧ encode (row.1 n) = encodeFormat row.2.1 n ∧ channel row.2.1 = row.2.2 := by
  simp only [frameRows, List.cons_append, List.nil_append, List.mem_cons, List.not_mem_nil, or_false] at h
  rcases h with rfl | rfl | rfl | rfl | rfl | rfl | rfl | rfl | rfl | rfl | rfl | rfl | rfl | rfl | rfl | rfl <;>
    exact ⟨rfl, rfl, rfl⟩

theorem channel_frameRow (h : row ∈ frameRows) : channel row.2.1 = row.2.2 := (frameRow_spec h 0).2.2

/-- A format word decodes to its frame type. -/
theorem decodeFormat_frameRow (h : row ∈ frameRows) (n : BitVec 12) : decodeFormat (formatWord row.2.1 n) = row.1 n := by
  obtain ⟨hwf, henc, -⟩ := frameRow_spec h n
  have hround := decodeOfEncode (row.1 n) hwf []
  rw [henc, decode_format] at hround
  injection hround with hround
  exact congrArg Prod.fst hround

/-- A frame-type instruction is EMIT of its type. -/
theorem exec_frameRow (h : row ∈ frameRows) (n : BitVec 12) (s : State) :
    exec (row.1 n) s = .next (s.emitFrame row.2.1 n) := by
  rw [← decodeFormat_frameRow h, exec_decodeFormat, fmtType_formatWord, fmtLen_formatWord]
end

/-- Every type has its row. -/
theorem exists_frameRow (t : BitVec 4) : ∃ row ∈ frameRows, row.2.1 = t := by
  have hall : ∀ t : BitVec 4, t ∈ frameRows.map (·.2.1) := by decide
  exact List.mem_map.mp (hall t)

/-- Settles O45. -/
theorem encodeOfFormatWord : Obligations.EncodeOfFormatWord := by
  intro w
  obtain ⟨row, hrow, htype⟩ := exists_frameRow (fmtType w)
  have hdec : decodeFormat w = row.1 (fmtLen w) := by
    rw [← decodeFormat_frameRow hrow, htype, formatWord_fields]
  refine ⟨?_, row, hrow, hdec, htype⟩
  obtain ⟨-, henc, -⟩ := frameRow_spec hrow (fmtLen w)
  rw [hdec, henc, htype, encodeFormat, formatWord_fields]

/-- Settles O43, word by word. -/
theorem tableWordsDecode : Obligations.TableWordsDecode := by
  unfold Obligations.TableWordsDecode
  decide

end Sys2Proof.Machine
end

section
/-! PROOFS. EMIT by the name of a frame type (42_decoder.md R230, R231; 43_demux_tokens.md R261, R262, R266, R267), and the
bytes that lead to it. -/

namespace Sys2Proof.Machine

/-! The outcomes of EMIT. -/

/-- EMIT of a valid frame. -/
theorem State.emitFrame_valid {s : State} (h : s.dcrc = s.dcrcx) (t : BitVec 4) (len : BitVec 12) :
    s.emitFrame t len = (s.deliver (s.received t len)).resumeHunt :=
  congrArg State.resumeHunt (if_pos h)

/-- EMIT of a corrupted frame. -/
theorem State.emitFrame_corrupted {s : State} (h : s.dcrc ≠ s.dcrcx) (t : BitVec 4) (len : BitVec 12) :
    s.emitFrame t len = (s.integrityError t len).resumeHunt :=
  congrArg State.resumeHunt (if_neg h)

/-- `s` with `r` at the tail of its channel, its acknowledgement still to come. -/
def State.queueFrame (r : FrameRecord) (s : State) : State := (s.pushRx (channel r.type) r).raise .rxFrame

/-- `s` with the wrong CRC of a frame of type `t` and length `len` reported, its NACK still to come. -/
def State.reportFrame (t : BitVec 4) (len : BitVec 12) (s : State) : State :=
  ({ s with
    errInfo := 0#4 ++ (len ++ (s.did ++ (0#4 ++ t)))
    errCrc := s.dcrc ++ s.dcrcx } : State).raise .integrityErr

/-- The integrity error, and its NACK when AUTO_NACK_EN = 1. -/
theorem State.integrityError_eq (t : BitVec 4) (len : BitVec 12) (s : State) :
    s.integrityError t len =
      if s.ctrl.getLsbD 1 = true then (s.reportFrame t len).genToken ⟨.nack, s.did, Config.nackIntegrity⟩
      else s.reportFrame t len := rfl

/-- Settles O24: the delivery queues the frame and generates no token. -/
theorem frameDeliveredWithoutToken : Obligations.FrameDeliveredWithoutToken := by
  rintro ⟨mk, t, c⟩ hrow len s hcrc hroom hnoack
  obtain rfl : channel t = c := channel_frameRow hrow
  have hexec : exec (mk len) s = .next (s.emitFrame t len) := exec_frameRow hrow len s
  have hno : ¬ (ackedType t = true ∧ s.autoAck = true) := by
    rw [ackedType_eq_true_iff]
    rintro ⟨ht, hack⟩
    rcases hnoack with ⟨h2, h3⟩ | hoff
    · exact ht.elim h2 h3
    · exact Bool.false_ne_true (hoff.symm.trans hack)
  have hdeliver : s.deliver (s.received t len) = s.queueFrame (s.received t len) :=
    (State.deliver_room (r := s.received t len) hroom).trans (if_neg hno)
  refine hexec.trans ?_
  rw [State.emitFrame_valid hcrc, hdeliver]
  rfl

/-- Settles O25: the delivery also generates the ACK, with TOKQ having room or full. -/
theorem frameDeliveredWithAck : Obligations.FrameDeliveredWithAck := by
  rintro ⟨mk, t, c⟩ hrow ht len s hcrc hroom hack
  obtain rfl : channel t = c := channel_frameRow hrow
  have hexec : exec (mk len) s = .next (s.emitFrame t len) := exec_frameRow hrow len s
  have hdeliver : s.deliver (s.received t len) = (s.queueFrame (s.received t len)).genToken ⟨.ack, s.did, 0⟩ :=
    (State.deliver_room (r := s.received t len) hroom).trans (if_pos ⟨(ackedType_eq_true_iff t).mpr ht, hack⟩)
  constructor <;> intro htok <;> refine hexec.trans ?_ <;>
    rw [State.emitFrame_valid hcrc, hdeliver]
  · rw [State.genToken_room (s := s.queueFrame _) htok]
    rfl
  · rw [State.genToken_full (s := s.queueFrame _) htok]
    rfl

/-- Settles O26. -/
theorem frameDroppedWhenChannelFull : Obligations.FrameDroppedWhenChannelFull := by
  rintro ⟨mk, t, c⟩ hrow len s hcrc hfull
  obtain rfl : channel t = c := channel_frameRow hrow
  have hexec : exec (mk len) s = .next (s.emitFrame t len) := exec_frameRow hrow len s
  refine hexec.trans ?_
  rw [State.emitFrame_valid hcrc, State.deliver_full (r := s.received t len) hfull]
  rfl

/-- Settles O27: the integrity error, without a NACK, with one, and with one dropped. -/
theorem frameCorruptedReported : Obligations.FrameCorruptedReported := by
  rintro ⟨mk, t, c⟩ hrow len s hcrc
  have hexec : exec (mk len) s = .next (s.emitFrame t len) := exec_frameRow hrow len s
  refine ⟨_, _, errInfo_eq_or t len s.did, errCrc_eq_or s.dcrc s.dcrcx, fun hoff => ?_, fun hon htok => ?_,
    fun hon htok => ?_⟩ <;> refine hexec.trans ?_ <;> rw [State.emitFrame_corrupted hcrc,
    State.integrityError_eq]
  · rw [if_neg (Bool.eq_false_iff.mp hoff)]
    rfl
  · rw [if_pos hon, State.genToken_room (s := s.reportFrame t len) htok]
    rfl
  · rw [if_pos hon, State.genToken_full (s := s.reportFrame t len) htok]
    rfl

/-! The bytes that lead to EMIT. -/

/-- Settles O22. -/
theorem rxByteCrcLowEmits : Obligations.RxByteCrcLowEmits := fun s b hd =>
  (exec_rxByte_of_eq (State.rxByte_of_readCrcLo b hd)).trans (exec_decodeFormat s.dfmt (s.rxCrcLo b)).symm

/-- Settles O30. -/
theorem frameBytesLeadToEmit : Obligations.FrameBytesLeadToEmit := by
  intro s fw id p c hd hidx hcrc hlen
  rw [perform_rx, State.rxByte_frameBody hd hidx hlen, hcrc, exec_decodeFormat]
  rfl

/-- A function-code instruction is its byte on the RX wire. -/
theorem exec_functionRow {row : Instr × BitVec 4 × Byte} (h : row ∈ functionRows) (s : State) :
    exec row.1 s = exec (.rxByte row.2.2) s := by
  simp only [functionRows, List.cons_append, List.nil_append, List.mem_cons, List.not_mem_nil, or_false] at h
  rcases h with rfl | rfl | rfl | rfl | rfl | rfl | rfl <;> rfl

/-- Settles O29: the byte is the first of the payload when DIDX is 0. -/
theorem functionByteIsOpaque : Obligations.FunctionByteIsOpaque := by
  intro row hrow
  refine ⟨exec_functionRow hrow, fun s hd hidx => ?_⟩
  rw [exec_functionRow hrow, exec_rxByte_of_eq (State.rxByte_of_readPayload row.2.2 hd), State.rxPayload, hidx]
  simp only [eq_comm (b := fmtLen s.dfmt)]
  rfl

end Sys2Proof.Machine
end

section
/-! PROOFS. Steps and reset (10_state.md R30, R55; logs 1, 10, 11): what a step runs, what a placed word is run as, and the state
after reset. -/

namespace Sys2Proof.Machine

/-- Settles O58. -/
theorem stepRunsNextEvent : Obligations.StepRunsNextEvent :=
  ⟨fun _ => step_of_inbox_nil, fun _ _ _ => step_of_inbox_cons, fun s => ⟨_, exec_reset s, rfl, rfl, rfl⟩⟩

/-- The state right after Reset meets every invariant. -/
theorem State.resetWith_inv {p : Params} (hp : p.ok) : (State.resetWith p).Inv := by
  obtain ⟨-, -, -, -, htxbuf⟩ := id hp
  exact ⟨hp, ⟨htxbuf, Mem.wf_nil⟩, queuesOk_nil _, ⟨Nat.zero_le _, nofun⟩, ⟨Nat.zero_le _, rfl⟩, nofun, rfl, rfl⟩

/-- Settles O57. -/
theorem resetStateIsSafe : Obligations.ResetStateIsSafe :=
  ⟨fun _ => State.resetWith_inv, State.resetWith_inv (by decide)⟩

/-! A word placed for the next step. -/

/-- A table word is read in one of four spaces (log 11). -/
theorem tableSpace_cases (nbits w : Nat) :
    tableSpace nbits w = .format ∨ tableSpace nbits w = .hostWrite ∨ (∃ t, tableSpace nbits w = .function t) ∨
      tableSpace nbits w = .command := by
  unfold tableSpace
  split_ifs <;> simp

/-- Delivery does not see the decoder's state. -/
theorem State.deliver_resumeHunt (r : FrameRecord) (s : State) :
    (s.deliver r).resumeHunt = s.resumeHunt.deliver r := by
  rcases lt_or_ge s.rxq[channel r.type].length s.params.rxqDepth with h | h
  · rw [State.deliver_room h, State.deliver_room (s := s.resumeHunt) h, apply_ite State.resumeHunt,
      State.genToken_resumeHunt]
    rfl
  · rw [State.deliver_full h, State.deliver_full (s := s.resumeHunt) h]
    rfl

theorem State.integrityError_resumeHunt (t : BitVec 4) (len : BitVec 12) (s : State) :
    (s.integrityError t len).resumeHunt = s.resumeHunt.integrityError t len := by
  rw [State.integrityError_eq, State.integrityError_eq, apply_ite State.resumeHunt, State.genToken_resumeHunt]
  rfl

/-- EMIT does not see the decoder's state. -/
theorem State.emitFrame_dstate (t : BitVec 4) (len : BitVec 12) (s : State) (d : DState) :
    ({ s with dstate := d } : State).emitFrame t len = s.emitFrame t len := by
  by_cases h : s.dcrc = s.dcrcx
  · rw [State.emitFrame_valid h, State.emitFrame_valid (s := { s with dstate := d }) h, State.deliver_resumeHunt,
      State.deliver_resumeHunt]
    rfl
  · rw [State.emitFrame_corrupted h, State.emitFrame_corrupted (s := { s with dstate := d }) h,
      State.integrityError_resumeHunt, State.integrityError_resumeHunt]
    rfl

/-- The last byte of a CRC that the decoder holds already is EMIT of the format word as things stand. -/
theorem exec_rxByte_last {u : State} {b : Byte} (hd : u.dstate = .readCrcLo) (hx : halfOf (hiByte u.dcrcx) b = u.dcrcx) :
    exec (.rxByte b) u = exec (decodeFormat u.dfmt) u := by
  have hcrc : u.rxCrcLo b = { u with dstate := .emit } := by
    unfold State.rxCrcLo
    rw [hx]
  rw [exec_rxByte_of_eq (State.rxByte_of_readCrcLo b hd), hcrc, exec_decodeFormat]
  exact congrArg Host.Outcome.next (u.emitFrame_dstate _ _ .emit)

/-- A function byte with a name is that instruction. -/
theorem exec_of_decodeFunction {t : BitVec 4} {b : Byte} {i : Instr} (h : decodeFunction t b = .ok i) (s : State) :
    exec i s = exec (.rxByte b) s := by
  unfold decodeFunction at h
  split_ifs at h with h1 h2 h3 h4 h5 h6 h7 <;> cases h
  · rw [h1.2]; rfl
  · rw [h2.2]; rfl
  · rw [h3.2]; rfl
  · rw [h4.2]; rfl
  · rw [h5.2]; rfl
  · rw [h6.2]; rfl
  · rw [h7.2]; rfl

/-- The low sixteen bits of a number, byte by byte. -/
theorem halfOf_ofNat (w : Nat) : halfOf (BitVec.ofNat 8 (w / 2 ^ 8)) (BitVec.ofNat 8 w) = BitVec.ofNat 16 w := by
  have hhi : hiByte (BitVec.ofNat 16 w) = BitVec.ofNat 8 (w / 2 ^ 8) := by
    apply BitVec.eq_of_toNat_eq
    simp only [hiByte, BitVec.extractLsb'_toNat, BitVec.toNat_ofNat, Nat.shiftRight_eq_div_pow]
    omega
  have hlo : loByte (BitVec.ofNat 16 w) = BitVec.ofNat 8 w := by
    apply BitVec.eq_of_toNat_eq
    simp only [loByte, BitVec.extractLsb'_toNat, BitVec.toNat_ofNat, Nat.shiftRight_zero]
    omega
  rw [← hhi, ← hlo, halfOf_hiByte_loByte]

section
variable {s : State} {nbits w : Nat} {i : Instr}

theorem placedFormat_isRun (hsp : tableSpace nbits w = .format) (h : decodeTableWord nbits w = some i) :
    step (s.withFetchWord nbits w) = exec i { s.withFetchWord nbits w with inbox := s.inbox } := by
  simp only [decodeTableWord, tableBytes, hsp, decode, instrOf, halfOf_hiByte_loByte, Option.some.injEq] at h
  subst h
  simp only [State.withFetchWord, State.place, hsp]
  rw [step_of_inbox_cons rfl]
  exact exec_rxByte_last rfl (show halfOf (hiByte 0) 0 = 0 by decide)

theorem placedFunction_isRun {t : BitVec 4} (hsp : tableSpace nbits w = .function t)
    (h : decodeTableWord nbits w = some i) :
    step (s.withFetchWord nbits w) = exec i { s.withFetchWord nbits w with inbox := s.inbox } := by
  have hdec : decodeFunction t (BitVec.ofNat 8 w) = .ok i := by
    simp only [decodeTableWord, tableBytes, hsp, decode] at h
    cases hf : decodeFunction t (BitVec.ofNat 8 w) <;> rw [hf] at h <;> cases h
    rfl
  simp only [State.withFetchWord, State.place, hsp]
  rw [step_of_inbox_cons rfl, Stimulus.instr, exec_of_decodeFunction hdec]

theorem placedHostWrite_isRun (hsp : tableSpace nbits w = .hostWrite) (h : decodeTableWord nbits w = some i) :
    step (s.withFetchWord nbits w) = exec i { s.withFetchWord nbits w with inbox := s.inbox } := by
  simp only [decodeTableWord, tableBytes, hsp, wordBytes, List.cons_append, List.nil_append, decode, instrOf,
    wordOfBytes_wordBytes, halfOf_ofNat, Option.some.injEq] at h
  subst h
  simp only [State.withFetchWord, State.place, hsp]
  rw [step_of_inbox_cons rfl, Stimulus.instr]

theorem placedCommand_isRun (hsp : tableSpace nbits w = .command) (h : decodeTableWord nbits w = some i) :
    step (s.withFetchWord nbits w) = exec i { s.withFetchWord nbits w with inbox := s.inbox } := by
  have hdec : decodeCommand (BitVec.ofNat 32 w) = .ok i := by
    simp only [decodeTableWord, tableBytes, hsp, wordBytes, decode, wordOfBytes_wordBytes] at h
    cases hc : decodeCommand (BitVec.ofNat 32 w) <;> rw [hc] at h <;> cases h
    rfl
  simp only [State.withFetchWord, State.place, hsp]
  rw [step_of_inbox_cons rfl, Stimulus.instr, exec_decodeWrite]
  exact exec_hostWrite_cmd_of_ok hdec _
end

/-- Settles O60: in each of the four spaces the placed event has the effect of the decoded instruction. -/
theorem placedWordIsRun : Obligations.PlacedWordIsRun := by
  intro s nbits w i h
  rcases tableSpace_cases nbits w with hsp | hsp | ⟨t, hsp⟩ | hsp
  · exact placedFormat_isRun hsp h
  · exact placedHostWrite_isRun hsp h
  · exact placedFunction_isRun hsp h
  · exact placedCommand_isRun hsp h

end Sys2Proof.Machine
end

section
/-! PROOFS. Pulls (41_encoder_mux.md R188 to R193): what one starts, what one sends, and a frame pulled whole. -/

namespace Sys2Proof.Machine

section
variable {s : State}

/-! What a pull selects. -/

theorem State.selectFrame_token (hsrc : s.txsrc = .none) {k : TokenRecord} {rest : List TokenRecord}
    (hq : s.tokq = k :: rest) : s.selectFrame = some (s.startToken k rest) := by
  simp only [State.selectFrame, hsrc, hq]

theorem State.selectFrame_host (hsrc : s.txsrc = .none) (hq : s.tokq = []) (hst : s.txStaged = true) :
    s.selectFrame = some s.startHost := by
  simp only [State.selectFrame, hsrc, hq, if_pos hst]

theorem State.selectFrame_idle (hsrc : s.txsrc = .none) (hq : s.tokq = []) (hst : s.txStaged = false) :
    s.selectFrame = none := by
  simp only [State.selectFrame, hsrc, hq, if_neg (Bool.eq_false_iff.mp hst)]

theorem execTxPull_of_select {u : State} (h : s.selectFrame = some u) : execTxPull s = .next u.sendByte := by
  unfold execTxPull
  rw [h]

theorem State.startHost_fixedId (h : s.txSnap.autoid = false) :
    s.startHost = { s with txframe := s.hostFrame s.txSnap.id, txsrc := .host, txpos := 0 } :=
  if_neg (Bool.eq_false_iff.mp h)

theorem State.startHost_autoId (h : s.txSnap.autoid = true) :
    s.startHost = { s with
      nextId := s.nextId + 1, txSnap := { s.txSnap with id := s.nextId }, txHdr := { s.txHdr with id := s.nextId }
      txframe := s.hostFrame s.nextId, txsrc := .host, txpos := 0 } :=
  if_pos h

/-! What a pull sends. -/

/-- The first byte of a frame is the first sync byte. -/
theorem State.sendByte_first (hpos : s.txpos = 0) {l : List Byte}
    (hframe : s.txframe = Config.sync1 :: Config.sync2 :: l) :
    s.sendByte = ({ s with txpos := 1 } : State).reply (.byte 0xEB) := by
  unfold State.sendByte
  rw [hpos, hframe]
  rfl

/-- A byte before the last of the frame. -/
theorem State.sendByte_within {b : Byte} (hb : s.txframe[s.txpos.toNat]? = some b)
    (h : s.txpos.toNat + 1 < s.txframe.length) : s.sendByte = ({ s with txpos := s.txpos + 1 } : State).reply (.byte b) := by
  rcases s.sendByte_cases with ⟨hpast, -⟩ | ⟨c, hlast, -, -⟩ | ⟨c, -, hc, hsend⟩
  · omega
  · omega
  · rwa [Option.some.inj (hb.symm.trans hc)]

/-- The last byte of the frame ends it. -/
theorem State.sendByte_last {b : Byte} (hb : s.txframe[s.txpos.toNat]? = some b)
    (h : s.txpos.toNat + 1 = s.txframe.length) : s.sendByte = s.finishFrame.reply (.byte b) := by
  rcases s.sendByte_cases with ⟨hpast, -⟩ | ⟨c, -, hc, hsend⟩ | ⟨c, hwithin, -, -⟩
  · omega
  · rw [Option.some.inj (hb.symm.trans hc), hsend]
    unfold State.finishFrame
    cases s.txsrc <;> rfl
  · omega

theorem State.finishFrame_host (h : s.txsrc = .host) :
    s.finishFrame = { s with
      txStaged := false, evtPend := s.evtPend ||| 0x40, cnt := { s.cnt with txok := satInc s.cnt.txok }
      txsrc := .none, txframe := [], txpos := 0 } := by
  simp only [State.finishFrame, h]
  rfl

theorem State.finishFrame_token (h : s.txsrc = .token) :
    s.finishFrame = { s with
      cnt := { s.cnt with toktx := satInc s.cnt.toktx }, txsrc := .none, txframe := [], txpos := 0 } := by
  simp only [State.finishFrame, h]
end

/-- A token's frame starts with the sync bytes, as every frame does. -/
theorem tokenFrame_eq_cons (k : TokenRecord) (id : Byte) : ∃ l, tokenFrame k id = Config.sync1 :: Config.sync2 :: l := by
  unfold tokenFrame
  cases k.kind <;> exact ⟨_, rfl⟩

/-- Settles O14: the pull sends the first byte of the frame it selects. -/
theorem txPullSelectsFrame : Obligations.TxPullSelectsFrame := by
  intro s hsrc
  refine ⟨fun hq hst => ?idle, fun k rest hq => ?token, fun hq hst hauto => ?fixedId, fun hq hst hauto => ?autoId⟩
  case idle =>
    change execTxPull s = _
    unfold execTxPull
    rw [State.selectFrame_idle hsrc hq hst]
    rfl
  case token =>
    obtain ⟨l, hl⟩ := tokenFrame_eq_cons k s.nextId
    exact (execTxPull_of_select (State.selectFrame_token hsrc hq)).trans
      (congrArg Host.Outcome.next (State.sendByte_first (s := s.startToken k rest) rfl hl))
  case fixedId =>
    refine (execTxPull_of_select (State.selectFrame_host hsrc hq hst)).trans ?_
    rw [State.startHost_fixedId hauto, State.sendByte_first rfl rfl]
    rfl
  case autoId =>
    refine (execTxPull_of_select (State.selectFrame_host hsrc hq hst)).trans ?_
    rw [State.startHost_autoId hauto, State.sendByte_first rfl rfl]
    rfl

/-- Settles O15. -/
theorem txPullSendsNextByte : Obligations.TxPullSendsNextByte := by
  intro s b hsrc hb
  have hpull {t : State} (h : s.sendByte = t) : exec .txPull s = .next t := h ▸ execTxPull_of_sending hsrc
  refine ⟨fun hwithin => hpull (State.sendByte_within hb hwithin), fun hlast hhost => hpull ?_,
    fun hlast htoken => hpull ?_⟩
  · rw [State.sendByte_last hb hlast, State.finishFrame_host hhost]
    rfl
  · rw [State.sendByte_last hb hlast, State.finishFrame_token htoken]
    rfl

/-! A frame pulled whole. -/

/-- The end of a frame depends on neither TXPOS nor the replies. -/
theorem State.finishFrame_txpos_replies (s : State) (n : BitVec 13) (rs : List Reply) :
    ({ s with txpos := n, replies := rs } : State).finishFrame = { s.finishFrame with replies := rs } := by
  unfold State.finishFrame
  cases s.txsrc <;> rfl

/-- Within a frame, as many pulls as it has bytes send them all and end it. -/
theorem perform_pulls_frame {s : State} (hsrc : s.txsrc ≠ .none) (hpos : s.txpos = 0) (hne : 0 < s.txframe.length)
    (hlen : s.txframe.length ≤ 8191) :
    perform (asmPull s.txframe.length) s =
      .next { s.finishFrame with replies := s.replies ++ s.txframe.map .byte } := by
  obtain ⟨n, hn⟩ : ∃ n, s.txframe.length = n + 1 := ⟨s.txframe.length - 1, by omega⟩
  have hsplit : asmPull (n + 1) = asmPull n ++ [.txPull] := List.replicate_succ'
  have hposn : (BitVec.ofNat 13 n).toNat = n := by
    rw [BitVec.toNat_ofNat, Nat.mod_eq_of_lt (by omega)]
  have hwithin := perform_pulls_within n s hsrc (by simp [hpos, hn]) hlen
  simp only [hpos, BitVec.ofNat_eq_ofNat, BitVec.zero_add, BitVec.toNat_ofNat, Nat.zero_mod, List.drop_zero] at hwithin
  have hall : (s.txframe.take n).map Reply.byte ++ [.byte s.txframe[n]] = s.txframe.map .byte := by
    rw [← List.map_singleton, ← List.map_append, List.take_append_getElem, ← hn, List.take_length]
  have hlast : execTxPull { s with
        txpos := BitVec.ofNat 13 n, replies := s.replies ++ (s.txframe.take n).map .byte } =
      .next { s.finishFrame with replies := s.replies ++ s.txframe.map .byte } := by
    refine (execTxPull_of_sending (by exact hsrc)).trans ?_
    rw [State.sendByte_last (b := s.txframe[n]) (by simp [hposn]) (by simp [hposn, hn]),
      State.finishFrame_txpos_replies, ← hall, ← List.append_assoc]
    rfl
  rw [hn, hsplit, perform_append hwithin]
  exact perform_cons_next hlast

/-- A frame is pulled whole from the pull on that starts it. -/
theorem perform_pulls_started {s u : State} {f : List Byte} (hselect : s.selectFrame = some u) (hsrc : u.txsrc ≠ .none)
    (hpos : u.txpos = 0) (hframe : u.txframe = f) (hne : 0 < f.length) (hlen : f.length ≤ 8191) :
    perform (asmPull f.length) s = .next { u.finishFrame with replies := u.replies ++ f.map .byte } := by
  subst hframe
  rw [← perform_pulls_frame hsrc hpos hne hlen]
  obtain ⟨n, hn⟩ : ∃ n, u.txframe.length = n + 1 := ⟨u.txframe.length - 1, by omega⟩
  have hsplit : asmPull (n + 1) = .txPull :: asmPull n := List.replicate_succ
  rw [hn, hsplit, perform_cons_next (e := .txPull) (execTxPull_of_select hselect),
    perform_cons_next (e := .txPull) (execTxPull_of_sending hsrc)]

/-- The staged frame's bytes, its captured CRC being that of its payload, are pulled whole. -/
theorem perform_pulls_host {s : State} (hok : s.stagedOk) (hsrc : s.txsrc = .none) (hq : s.tokq = [])
    (hst : s.txStaged = true) {id : Byte} (hpos : s.startHost.txpos = 0) (hframe : s.startHost.txframe = s.hostFrame id) :
    perform (asmPull (7 + s.txSnap.len.toNat)) s =
      .next { s.startHost.finishFrame with
        replies := s.startHost.replies ++
          (encodeFrame s.txSnap.type id (s.txbuf.slice s.txSnap.len.toNat)).map .byte } := by
  have hlen : (encodeFrame s.txSnap.type id (s.txbuf.slice s.txSnap.len.toNat)).length = 7 + s.txSnap.len.toNat := by
    rw [length_encodeFrame, Mem.length_slice]
  have hbound : s.txSnap.len.toNat < 4096 := s.txSnap.len.isLt
  rw [← hlen]
  exact perform_pulls_started (State.selectFrame_host hsrc hq hst) (by rw [State.startHost_txsrc]; nofun) hpos
    (hframe.trans (State.hostFrame_eq_encodeFrame (hok hst) id)) (by omega) (by omega)

/-- Settles O16: the staged frame is pulled whole, with its own id or NEXT_ID. -/
theorem pullsSendStagedFrame : Obligations.PullsSendStagedFrame := by
  intro s hok hsrc hq hst
  have hpull {id : Byte} := perform_pulls_host hok hsrc hq hst (id := id)
  constructor <;> intro hauto
  · rw [State.startHost_fixedId hauto] at hpull
    rw [hpull rfl rfl, State.finishFrame_host rfl, hsrc]
  · rw [State.startHost_autoId hauto] at hpull
    rw [hpull rfl rfl, State.finishFrame_host rfl, hsrc]

/-- Settles O17: the token's frame is pulled whole. -/
theorem pullsSendToken : Obligations.PullsSendToken := by
  intro s k rest hsrc hq
  obtain ⟨hpos, hlen⟩ := length_tokenFrame k s.nextId
  have hpull := perform_pulls_started (u := s.startToken k rest) (State.selectFrame_token hsrc hq) nofun rfl rfl
    (Nat.zero_lt_of_lt hpos) (hlen.trans (by omega))
  rw [State.finishFrame_token rfl] at hpull
  rw [hsrc]
  exact hpull

end Sys2Proof.Machine
end

section
/-! PROOFS. Host reads and refused accesses (44_host_interface.md R300, R301, R303, R306; 20_memory.md R81 to R84). -/

namespace Sys2Proof.Machine

/-! The words that are read. -/

/-- TX_HDR as shifted fields (10_state.md R40), bit by bit. -/
theorem TxHdr.word_eq_or (h : TxHdr) :
    h.word = (h.len.setWidth 32 <<< 16) ||| (h.id.setWidth 32 <<< 8) ||| h.type.setWidth 32 := by
  unfold TxHdr.word
  apply BitVec.eq_of_getLsbD_eq
  simp only [BitVec.getLsbD_append, BitVec.getLsbD_or, BitVec.getLsbD_shiftLeft, BitVec.getLsbD_setWidth]
  grind

/-- RX_HDR of a frame as shifted fields (10_state.md R49), bit by bit. -/
theorem rxHdr_eq_or (t : BitVec 4) (len : BitVec 12) (id : Byte) :
    (1#1 ++ (0#3 ++ (len ++ (id ++ (0#4 ++ t)))) : Word) =
      (1 <<< 31) ||| (len.setWidth 32 <<< 16) ||| (id.setWidth 32 <<< 8) ||| t.setWidth 32 := by
  have hvalid : (1 <<< 31 : Word) = BitVec.twoPow 32 31 := rfl
  rw [hvalid]
  apply BitVec.eq_of_getLsbD_eq
  simp only [BitVec.getLsbD_append, BitVec.getLsbD_or, BitVec.getLsbD_shiftLeft, BitVec.getLsbD_setWidth,
    BitVec.getLsbD_one, BitVec.getLsbD_twoPow]
  grind

section
variable (s : State)

/-- A read at the offset of a register returns its value. -/
theorem exec_hostRead_offset (r : Reg) : exec (.hostRead r.offset) s = .next (s.reply (.word (s.readReg r))) := by
  change execHostRead r.offset s = _
  unfold execHostRead
  rw [target_offset]
  rfl

theorem exec_hostRead_txbuf {i : Nat} (hi : i < Config.maxPayload) :
    exec (.hostRead (BitVec.ofNat 16 (0x4000 + 4 * i))) s = .next (s.reply (.word ((s.txbuf.read i).setWidth 32))) := by
  change execHostRead _ s = _
  unfold execHostRead
  rw [target_txbuf hi]
  rfl

theorem exec_hostRead_rxwin {i : Nat} (hi : i < Config.maxPayload) :
    exec (.hostRead (BitVec.ofNat 16 (0x8000 + 4 * i))) s = .next (s.reply (.word ((s.rxWindow i).setWidth 32))) := by
  change execHostRead _ s = _
  unfold execHostRead
  rw [target_rxwin hi]
  rfl
end

/-- Settles O35: each offset is that of its register. -/
theorem hostReadReturnsRegister : Obligations.HostReadReturnsRegister := by
  intro s
  have hread := exec_hostRead_offset s
  simp only [← TxHdr.word_eq_or, ← errCrc_eq_or]
  exact ⟨hread .ctrl, hread .evtPend, hread .evtMask, hread .cmd, hread .hcrc, hread .txHdr, hread .rxSel, hread .errInfo,
    hread .errCrc, hread .cnt0, hread .cnt1, hread .cnt2, hread .cnt3, hread .nextId⟩

/-! The selected queue. -/

theorem State.selQueue_of_channel {s : State} {c : Fin 7} (h : s.rxSel.toNat = c.val) : s.selQueue = s.rxq[c] := by
  unfold State.selQueue
  rw [h, channelOf_val]

theorem State.selQueue_of_seven {s : State} (h : s.rxSel = 7) : s.selQueue = [] := by
  unfold State.selQueue
  rw [h]
  rfl

section
variable {s : State} {h : FrameRecord} {rest : List FrameRecord}

/-! The views of its head (R49, R83), or of none. -/

theorem State.rxHdr_of_cons (hq : s.selQueue = h :: rest) :
    s.rxHdr = (1 <<< 31) ||| (h.len.setWidth 32 <<< 16) ||| (h.id.setWidth 32 <<< 8) ||| h.type.setWidth 32 := by
  rw [← rxHdr_eq_or]
  unfold State.rxHdr
  rw [hq]

theorem State.rxCrc_of_cons (hq : s.selQueue = h :: rest) : s.rxCrc = h.crc.setWidth 32 := by
  unfold State.rxCrc
  rw [hq]

theorem State.rxWindow_of_cons (hq : s.selQueue = h :: rest) (i : Nat) :
    s.rxWindow i = if i < h.len.toNat then h.payload.getD i 0 else 0 := by
  unfold State.rxWindow
  rw [hq]

theorem State.rxHdr_of_nil (hq : s.selQueue = []) : s.rxHdr = 0 := by
  unfold State.rxHdr
  rw [hq]

theorem State.rxCrc_of_nil (hq : s.selQueue = []) : s.rxCrc = 0 := by
  unfold State.rxCrc
  rw [hq]

theorem State.rxWindow_of_nil (hq : s.selQueue = []) (i : Nat) : s.rxWindow i = 0 := by
  unfold State.rxWindow
  rw [hq]
end

/-- Settles O37: the views read the selected queue's head, and 0 without one. -/
theorem hostReadReturnsRxView : Obligations.HostReadReturnsRxView := by
  intro s
  refine ⟨fun c h rest hsel hhead => ?head, fun hnone => ?empty⟩
  case head =>
    have hq : s.selQueue = h :: rest := (State.selQueue_of_channel hsel).trans hhead
    rw [← State.rxHdr_of_cons hq, ← State.rxCrc_of_cons hq]
    refine ⟨exec_hostRead_offset s .rxHdr, exec_hostRead_offset s .rxCrc, fun i b hi =>
      ⟨fun hb hlt => ?_, fun hge => ?_⟩⟩ <;> rw [exec_hostRead_rxwin s hi, State.rxWindow_of_cons hq]
    · rw [if_pos hlt, List.getD_eq_getElem?_getD, hb]
      rfl
    · rw [if_neg (by omega)]
      rfl
  case empty =>
    have hq : s.selQueue = [] := by
      rcases hnone with h7 | ⟨c, hsel, hempty⟩
      · exact State.selQueue_of_seven h7
      · exact (State.selQueue_of_channel hsel).trans hempty
    refine ⟨?_, ?_, fun i hi => ?_⟩
    · exact State.rxHdr_of_nil hq ▸ exec_hostRead_offset s .rxHdr
    · exact State.rxCrc_of_nil hq ▸ exec_hostRead_offset s .rxCrc
    · rw [exec_hostRead_rxwin s hi, State.rxWindow_of_nil hq]
      rfl

/-- Settles O38. -/
theorem txbufWindowReadsAndWrites : Obligations.TxbufWindowReadsAndWrites := by
  intro s i v hi
  have hwrite : exec (.hostWrite (BitVec.ofNat 16 (0x4000 + 4 * i)) v) s =
      if s.txStaged then .next (s.raise .reject)
      else .next { s with txbuf := s.txbuf.write i (v.extractLsb' 0 8) } := by
    change execHostWrite _ v s = _
    unfold execHostWrite
    rw [target_txbuf hi]
  refine ⟨exec_hostRead_txbuf s hi, fun hst => hwrite.trans (if_pos hst), fun hst hwf => ?_⟩
  exact ⟨_, hwrite.trans (if_neg (Bool.eq_false_iff.mp hst)), fun j => Mem.read_write hwf hi j _⟩

/-! Refused accesses. -/

/-- A bad offset names nothing. -/
theorem target_of_badOffset {off : Half} (h : badOffset off) : target off = .misaligned ∨ target off = .unmapped := by
  rcases target_cases off with ⟨-, htarget⟩ | ⟨hok, -⟩ | ⟨hok, -⟩ | ⟨r, rfl, -⟩
  · exact htarget
  · exact absurd h hok
  · exact absurd h hok
  · exact absurd h (not_badOffset_offset r)

/-- Settles O39: bad offsets, read-only registers, the RX window. -/
theorem refusedAccessesRaiseReject : Obligations.RefusedAccessesRaiseReject := by
  refine ⟨fun s off hbad => ?bad, fun s off v hoff => ?readOnly, fun s i v hi => ?window⟩
  case bad =>
    constructor
    · change execHostRead off s = _
      unfold execHostRead
      rcases target_of_badOffset hbad with h | h <;> rw [h] <;> rfl
    · intro v
      change execHostWrite off v s = _
      unfold execHostWrite
      rcases target_of_badOffset hbad with h | h <;> rw [h] <;> rfl
  case readOnly =>
    have hwrite (r : Reg) := exec_hostWrite_offset r v s
    simp only [List.mem_cons, List.not_mem_nil, or_false] at hoff
    rcases hoff with rfl | rfl | rfl | rfl | rfl | rfl | rfl | rfl | rfl | rfl
    · exact hwrite .status
    · exact hwrite .hcrc
    · exact hwrite .rxHdr
    · exact hwrite .rxCrc
    · exact hwrite .errInfo
    · exact hwrite .errCrc
    · exact hwrite .cnt0
    · exact hwrite .cnt1
    · exact hwrite .cnt2
    · exact hwrite .cnt3
  case window =>
    change execHostWrite _ v s = _
    unfold execHostWrite
    rw [target_rxwin hi]
    rfl

end Sys2Proof.Machine
end

section
/-! PROOFS. STATUS (10_state.md R46, R52), field by field. -/

namespace Sys2Proof.Machine

section
variable (s : State)

theorem State.status_dstate : s.status.extractLsb' 0 4 = s.dstate.code := by
  apply BitVec.eq_of_getLsbD_eq
  simp only [State.status, BitVec.getLsbD_append, BitVec.getLsbD_extractLsb']
  grind

theorem State.status_txStaged : s.status.getLsbD 4 = s.txStaged := by
  simp only [State.status, BitVec.getLsbD_append]
  simp

theorem State.status_txsrc : s.status.extractLsb' 5 2 = s.txsrc.code := by
  apply BitVec.eq_of_getLsbD_eq
  simp only [State.status, BitVec.getLsbD_append, BitVec.getLsbD_extractLsb']
  grind

theorem State.status_irq : s.status.getLsbD 7 = s.irq := by
  simp only [State.status, BitVec.getLsbD_append]
  simp

theorem State.status_rxne (c : Fin 7) : s.status.getLsbD (8 + c.val) = s.rxne.getLsbD c.val := by
  have hc := c.isLt
  simp only [State.status, BitVec.getLsbD_append]
  grind

theorem State.status_reserved : s.status.getLsbD 15 = false := by
  simp only [State.status, BitVec.getLsbD_append]
  simp

theorem State.status_tokCount : s.status.extractLsb' 16 8 = BitVec.ofNat 8 s.tokq.length := by
  apply BitVec.eq_of_getLsbD_eq
  simp only [State.status, BitVec.getLsbD_append, BitVec.getLsbD_extractLsb']
  grind

theorem State.status_rxCount : s.status.extractLsb' 24 8 = BitVec.ofNat 8 s.selQueue.length := by
  apply BitVec.eq_of_getLsbD_eq
  simp only [State.status, BitVec.getLsbD_append, BitVec.getLsbD_extractLsb']
  grind

/-- Bit `c` of RXNE, channel by channel. -/
theorem State.rxne_getLsbD (c : Fin 7) : s.rxne.getLsbD c.val = !s.rxq[c].isEmpty := by
  simp only [State.rxne, BitVec.getLsbD_append]
  fin_cases c <;> simp

theorem State.irq_eq_true_iff : s.irq = true ↔ s.evtPend &&& s.evtMask ≠ 0 := bne_iff_ne
end

/-- The codes of the decoder's states are their order in R33; `emit` is never read. -/
theorem DState.getElem?_code {d : DState} (h : d ≠ .emit) :
    [DState.huntSync1, .huntSync2, .readFormatHi, .readFormatLo, .readId, .readPayload, .readCrcHi,
      .readCrcLo][d.code.toNat]? = some d := by
  cases d with
  | emit => exact absurd rfl h
  | _ => rfl

theorem TxSrc.getElem?_code (t : TxSrc) : [TxSrc.none, .host, .token][t.code.toNat]? = some t := by
  cases t <;> rfl

/-- A count of at most 255 fits its eight bits. -/
theorem toNat_count {n : Nat} (h : n ≤ 255) : (BitVec.ofNat 8 n).toNat = n := by
  rw [BitVec.toNat_ofNat, Nat.mod_eq_of_lt (by omega)]

/-- Settles O36, field by field. -/
theorem hostReadReturnsStatus : Obligations.HostReadReturnsStatus := by
  intro s htok hrx hemit
  refine ⟨s.status, exec_hostRead_offset s .status, ?dstate, s.status_txStaged, ?txsrc, ?irq, fun c => ?rxne,
    s.status_reserved, ?tokCount, fun c hsel => ?rxCount, fun h7 => ?noChannel⟩
  case dstate => rw [State.status_dstate, DState.getElem?_code hemit]
  case txsrc => rw [State.status_txsrc, TxSrc.getElem?_code]
  case irq => rw [State.status_irq, State.irq_eq_true_iff]
  case rxne => rw [State.status_rxne, State.rxne_getLsbD, Bool.not_eq_true', List.isEmpty_eq_false_iff, List.length_pos_iff]
  case tokCount => rw [State.status_tokCount, toNat_count htok]
  case rxCount => rw [State.status_rxCount, State.selQueue_of_channel hsel, toNat_count (hrx c)]
  case noChannel => rw [State.status_rxCount, State.selQueue_of_seven h7]; rfl

end Sys2Proof.Machine
end
